-- ==== Sys2Proof/Word.lean ====
section
/-! DEFINITION. The machine's two word types (spec 00_scope.md R7, 10_state.md R20): a byte and a 32-bit word. All
narrowing, rounding and byte-order helpers stand in Machine/Operands.lean and Machine/Ops.lean. -/

namespace Sys2Proof

/-- One byte: a pixel channel, a memory cell, an opcode, a byte of a frame. -/
abbrev Byte := BitVec 8

/-- One 32-bit word: a CSR, a bus datum, a command word (R20, R100). -/
abbrev Word := BitVec 32

end Sys2Proof
end

