-- ==== Sys2Proof/Config.lean ====
section
/-! DEFINITION. What an implementation fixes (spec 00_scope.md R5, 10_state.md R56) and the free values. Every constant
that the spec leaves OPEN is an `opaque` with no body: nothing in Lean can evaluate it, so what is proved holds for every
choice of it. -/

namespace Sys2Proof

/-- The block's two local memories (R9, R50, R51). -/
inductive Space where
  | pixmem
  | packmem
  deriving DecidableEq, Repr

/-- The parameters of R5 that a rule depends on. `bayer` is the 4x4 matrix BAYER in row-major order: entry `4*a + b` is
`M[a][b]` (R150). CLK has no field: a Clock step is one tick of whatever length (R5, R291, S9). -/
structure Config where
  pixMax : Nat
  packBytes : Nat
  txqDepth : Nat
  bayer : List Nat
  deriving DecidableEq, Repr

/-- R150's default matrix, `15*(B4+1)`, by rows `a = 0..3`. -/
def Config.bayerDefault : List Nat :=
  [15, 135, 45, 165,
   195, 75, 225, 105,
   60, 180, 30, 150,
   240, 120, 210, 90]

/-- R150, R5: sixteen distinct integers in 15..240. -/
abbrev Config.bayerLegal (m : List Nat) : Prop :=
  m.length = 16 ∧ (∀ v ∈ m, 15 ≤ v ∧ v ≤ 240) ∧ m.Nodup

/-- The legal ranges of the table of R5. -/
abbrev Config.legal (c : Config) : Prop :=
  (8 ≤ c.pixMax ∧ c.pixMax ≤ 4194304) ∧ (1 ≤ c.packBytes ∧ c.packBytes ≤ 8388608) ∧
  (1 ≤ c.txqDepth ∧ c.txqDepth ≤ 255) ∧ Config.bayerLegal c.bayer

/-- PIX_MAX is 8 plus this, so anywhere in 8..2^22 (R5: OPEN). -/
opaque Config.pixMaxAboveLeast : Fin 4194297

/-- PACK_BYTES is 1 plus this, so anywhere in 1..2^23 (R5: OPEN). -/
opaque Config.packBytesAboveLeast : Fin 8388608

/-- TXQ_DEPTH is 1 plus this, so anywhere in 1..255 (R5: OPEN). -/
opaque Config.txqDepthAboveLeast : Fin 255

/-- The matrix an implementation was built with (R5, R150: a parameter). -/
opaque Config.bayerBuilt : List Nat

/-- The configuration of the machine at power-on: any legal one. A built matrix outside R150's constraints cannot be, and
stands for the default (R150: "use the default only when no other matrix is given", 93 K1). -/
def Config.chip : Config where
  pixMax := Config.pixMaxAboveLeast.val + 8
  packBytes := Config.packBytesAboveLeast.val + 1
  txqDepth := Config.txqDepthAboveLeast.val + 1
  bayer := if Config.bayerLegal Config.bayerBuilt then Config.bayerBuilt else Config.bayerDefault

/-- R52, S1: what a memory byte holds that nothing has written since power-on. One draw for each byte of each memory, the
same at every read, with no law. -/
opaque Config.powerOnByte : Space → Nat → Byte

end Sys2Proof
end

