-- ==== Sys2Proof/Syntax.lean ====
section
/-! DEFINITION. The command set DCMD-v7 as syntax (spec 30_encoding.md R100 to R103): one constructor for each row of
spec/opcode_table.json, with the fields that R102 lets the row carry; and the names of R106 and R115. -/

namespace Sys2Proof

/-- The METRIC field (R100, R181): 0 is squared Euclidean, 1 is perceptual. -/
inductive Metric where
  | euclid
  | percept
  deriving DecidableEq, Repr

/-- The eighteen commands of R103. `len` is FRAME_WR's data length, a count that the encoding holds in five bits. -/
inductive Instr where
  | nop
  | luma
  | dthNone
  | dthGray
  | dthBayer
  | dthFs
  | dthAtk
  | dthPfs
  | dthPatk
  | dth4gray
  | palDist (metric : Metric)
  | palNearest (metric : Metric)
  | packBw (inv : Bool)
  | packRed (inv : Bool)
  | pack4gray (inv : Bool)
  | frameWr (fop : Byte) (len : Nat) (ack : Bool)
  | bulk (fop : Byte)
  | connect
  deriving DecidableEq, Repr

/-- The source's `ditherMode` values (R3, R115). -/
inductive DitherMode where
  | none
  | gray
  | bayer
  | floydsteinberg
  | atkinson
  | fourGray
  | bwrFloydsteinberg
  | bwr
  deriving DecidableEq, Repr

/-- The device frame opcodes of R106 by name. -/
inductive DeviceOp where
  | setPins
  | init
  | clear
  | sendCmd
  | sendData
  | display
  | sleep
  | setTime
  | setConfig
  | sysReset
  | sysSleep
  | cfgErase
  deriving DecidableEq, Repr

end Sys2Proof
end

