-- ==== Sys2Proof/WellFormed.lean ====
section
/-! DEFINITION. Which terms of Instr a command word can carry (spec 30_encoding.md R100). -/

namespace Sys2Proof

/-- R100: LEN is five bits wide, so FRAME_WR's length is 0..31 (20..31 are encodable and raise FRAME_TOO_LARGE). Every
other field's type is exactly its width. -/
def Instr.wellFormed : Instr → Bool
  | .nop => true
  | .luma => true
  | .dthNone => true
  | .dthGray => true
  | .dthBayer => true
  | .dthFs => true
  | .dthAtk => true
  | .dthPfs => true
  | .dthPatk => true
  | .dth4gray => true
  | .palDist _ => true
  | .palNearest _ => true
  | .packBw _ => true
  | .packRed _ => true
  | .pack4gray _ => true
  | .frameWr _ len _ => decide (len < 32)
  | .bulk _ => true
  | .connect => true

end Sys2Proof
end

