-- ==== Sys2Proof/Decode.lean ====
section
/-! DEFINITION. The command word (spec 30_encoding.md R100 to R104): its fields, the decoder (total, rejecting by name), the
encoder, the opcode table's match and mask words, and the names that R106, R114 and R115 give. -/

namespace Sys2Proof

/-- The fields of format C (R100), the two reserved ranges included. -/
structure Fields where
  op : Byte
  fop : Byte
  len : BitVec 5
  reservedLow : BitVec 3
  ack : Bool
  inv : Bool
  metric : Bool
  reservedHigh : BitVec 5
  deriving DecidableEq, Repr

/-- R100, R101: the fields of a word, each an unsigned bit range. -/
def fieldsOf (w : Word) : Fields where
  op := w.extractLsb' 0 8
  fop := w.extractLsb' 8 8
  len := w.extractLsb' 16 5
  reservedLow := w.extractLsb' 21 3
  ack := w.getLsbD 24
  inv := w.getLsbD 25
  metric := w.getLsbD 26
  reservedHigh := w.extractLsb' 27 5

/-- R102: which of the optional fields an opcode lets be nonzero. -/
structure Permits where
  fop : Bool := false
  len : Bool := false
  ack : Bool := false
  inv : Bool := false
  metric : Bool := false
  deriving DecidableEq, Repr

/-- R102, R104: no bit is set that the opcode does not allow, and the reserved bits are zero. -/
def Fields.within (f : Fields) (p : Permits) : Bool :=
  f.reservedLow == 0 && f.reservedHigh == 0 && (p.fop || f.fop == 0) && (p.len || f.len == 0) && (p.ack || !f.ack) &&
    (p.inv || !f.inv) && (p.metric || !f.metric)

/-- The two ways of R104 in which a word is illegal. -/
inductive Illegal where
  | unassignedOpcode (op : Byte)
  | disallowedBits (op : Byte)
  deriving DecidableEq, Repr

/-- The METRIC bit as a metric (R100). -/
def metricOfBit (b : Bool) : Metric := if b then .percept else .euclid

/-- The METRIC bit of a metric (R100). -/
def bitOfMetric : Metric → Bool
  | .euclid => false
  | .percept => true

/-- R102, R103: the instruction if the word keeps within the opcode's permitted fields. -/
def permitted (f : Fields) (p : Permits) (i : Instr) : Except Illegal Instr :=
  if f.within p then .ok i else .error (.disallowedBits f.op)

/-- R103, R104: the instruction that the fields of a word name, or why there is none. -/
def decodeFields (f : Fields) : Except Illegal Instr :=
  match f.op.toNat with
  | 0x00 => permitted f {} .nop
  | 0x10 => permitted f {} .luma
  | 0x20 => permitted f {} .dthNone
  | 0x21 => permitted f {} .dthGray
  | 0x22 => permitted f {} .dthBayer
  | 0x23 => permitted f {} .dthFs
  | 0x24 => permitted f {} .dthAtk
  | 0x25 => permitted f {} .dthPfs
  | 0x26 => permitted f {} .dthPatk
  | 0x27 => permitted f {} .dth4gray
  | 0x30 => permitted f { metric := true } (.palDist (metricOfBit f.metric))
  | 0x31 => permitted f { metric := true } (.palNearest (metricOfBit f.metric))
  | 0x40 => permitted f { inv := true } (.packBw f.inv)
  | 0x41 => permitted f { inv := true } (.packRed f.inv)
  | 0x42 => permitted f { inv := true } (.pack4gray f.inv)
  | 0x50 => permitted f { fop := true, len := true, ack := true } (.frameWr f.fop f.len.toNat f.ack)
  | 0x51 => permitted f { fop := true } (.bulk f.fop)
  | 0x52 => permitted f {} .connect
  | _ => .error (.unassignedOpcode f.op)

/-- R104: every word is one row of the opcode table or illegal. -/
def decode (w : Word) : Except Illegal Instr := decodeFields (fieldsOf w)

/-- R103: the OP byte of a command. -/
def Instr.opcode : Instr → Byte
  | .nop => 0x00
  | .luma => 0x10
  | .dthNone => 0x20
  | .dthGray => 0x21
  | .dthBayer => 0x22
  | .dthFs => 0x23
  | .dthAtk => 0x24
  | .dthPfs => 0x25
  | .dthPatk => 0x26
  | .dth4gray => 0x27
  | .palDist _ => 0x30
  | .palNearest _ => 0x31
  | .packBw _ => 0x40
  | .packRed _ => 0x41
  | .pack4gray _ => 0x42
  | .frameWr _ _ _ => 0x50
  | .bulk _ => 0x51
  | .connect => 0x52

/-- A word with this OP and every other field 0 (R100). -/
def plainFields (op : Byte) : Fields where
  op := op
  fop := 0
  len := 0
  reservedLow := 0
  ack := false
  inv := false
  metric := false
  reservedHigh := 0

/-- The fields of an instruction's word (R100 to R103). -/
def fieldsOfInstr : Instr → Fields
  | .nop => plainFields 0x00
  | .luma => plainFields 0x10
  | .dthNone => plainFields 0x20
  | .dthGray => plainFields 0x21
  | .dthBayer => plainFields 0x22
  | .dthFs => plainFields 0x23
  | .dthAtk => plainFields 0x24
  | .dthPfs => plainFields 0x25
  | .dthPatk => plainFields 0x26
  | .dth4gray => plainFields 0x27
  | .palDist m => { plainFields 0x30 with metric := bitOfMetric m }
  | .palNearest m => { plainFields 0x31 with metric := bitOfMetric m }
  | .packBw inv => { plainFields 0x40 with inv := inv }
  | .packRed inv => { plainFields 0x41 with inv := inv }
  | .pack4gray inv => { plainFields 0x42 with inv := inv }
  | .frameWr fop len ack => { plainFields 0x50 with fop := fop, len := BitVec.ofNat 5 len, ack := ack }
  | .bulk fop => { plainFields 0x51 with fop := fop }
  | .connect => plainFields 0x52

/-- R100: the word whose fields these are, each field shifted to its place. -/
def assemble (f : Fields) : Word :=
  BitVec.ofNat 32
    (f.op.toNat + f.fop.toNat * 2 ^ 8 + f.len.toNat * 2 ^ 16 + f.reservedLow.toNat * 2 ^ 21 + f.ack.toNat * 2 ^ 24 +
      f.inv.toNat * 2 ^ 25 + f.metric.toNat * 2 ^ 26 + f.reservedHigh.toNat * 2 ^ 27)

/-- The command word of a well-formed instruction (R100, R103). -/
def encode (i : Instr) : Word := assemble (fieldsOfInstr i)

/-- The instruction the decoder reads from a row's bits, numbered as spec/opcode_table.json numbers them. The one word of a
command is delivered whole on the bus (R28, R100), so no byte order enters. -/
def decodeTableWord (nbits w : Nat) : Option Instr :=
  match decode (BitVec.ofNat 32 (w % 2 ^ nbits)) with
  | .ok i => some i
  | .error _ => none

/-- One row of spec/opcode_table.json: a word is the row when it has the row's bits under the row's mask (R104). -/
structure TableRow where
  matchWord : Word
  mask : Word
  deriving DecidableEq, Repr

/-- Whether a word is this row (R104). -/
def TableRow.accepts (r : TableRow) (w : Word) : Bool := w &&& r.mask == r.matchWord

/-- The match and mask words of the eighteen rows of spec/opcode_table.json, in its order. -/
def opcodeTable : List TableRow :=
  [⟨0x00000000, 0xFFFFFFFF⟩, ⟨0x00000010, 0xFFFFFFFF⟩, ⟨0x00000020, 0xFFFFFFFF⟩, ⟨0x00000021, 0xFFFFFFFF⟩,
   ⟨0x00000022, 0xFFFFFFFF⟩, ⟨0x00000023, 0xFFFFFFFF⟩, ⟨0x00000024, 0xFFFFFFFF⟩, ⟨0x00000025, 0xFFFFFFFF⟩,
   ⟨0x00000026, 0xFFFFFFFF⟩, ⟨0x00000027, 0xFFFFFFFF⟩, ⟨0x00000030, 0xFBFFFFFF⟩, ⟨0x00000031, 0xFBFFFFFF⟩,
   ⟨0x00000040, 0xFDFFFFFF⟩, ⟨0x00000041, 0xFDFFFFFF⟩, ⟨0x00000042, 0xFDFFFFFF⟩, ⟨0x00000050, 0xFEE000FF⟩,
   ⟨0x00000051, 0xFFFF00FF⟩, ⟨0x00000052, 0xFFFFFFFF⟩]

/-- The byte of a device frame opcode (R106). -/
def DeviceOp.code : DeviceOp → Byte
  | .setPins => 0x00
  | .init => 0x01
  | .clear => 0x02
  | .sendCmd => 0x03
  | .sendData => 0x04
  | .display => 0x05
  | .sleep => 0x06
  | .setTime => 0x20
  | .setConfig => 0x90
  | .sysReset => 0x91
  | .sysSleep => 0x92
  | .cfgErase => 0x99

/-- R115: `DISPLAY` stands for `FRAME_WR 0x05, 0`, acknowledged. -/
def displayCommand : Instr := .frameWr DeviceOp.display.code 0 true

/-- R115: the commands that `DITHER m` stands for, LUMA first for every gray mode. -/
def ditherExpansion : DitherMode → List Instr
  | .none => [.luma, .dthNone]
  | .gray => [.luma, .dthGray]
  | .bayer => [.luma, .dthBayer]
  | .floydsteinberg => [.luma, .dthFs]
  | .atkinson => [.luma, .dthAtk]
  | .fourGray => [.luma, .dth4gray]
  | .bwrFloydsteinberg => [.dthPfs]
  | .bwr => [.dthPatk]

/-- The mnemonic of R103 that the syntax of R114 writes. -/
def Instr.mnemonic : Instr → String
  | .nop => "NOP"
  | .luma => "LUMA"
  | .dthNone => "DTH_NONE"
  | .dthGray => "DTH_GRAY"
  | .dthBayer => "DTH_BAYER"
  | .dthFs => "DTH_FS"
  | .dthAtk => "DTH_ATK"
  | .dthPfs => "DTH_PFS"
  | .dthPatk => "DTH_PATK"
  | .dth4gray => "DTH_4GRAY"
  | .palDist _ => "PAL_DIST"
  | .palNearest _ => "PAL_NEAREST"
  | .packBw _ => "PACK_BW"
  | .packRed _ => "PACK_RED"
  | .pack4gray _ => "PACK_4GRAY"
  | .frameWr _ _ _ => "FRAME_WR"
  | .bulk _ => "BULK"
  | .connect => "CONNECT"

/-- R114: a command as a line of the spec's syntax; opcodes in decimal, the optional keywords as R114 names them. -/
def Instr.syntaxLine : Instr → String
  | .palDist .percept => "PAL_DIST percept"
  | .palNearest .percept => "PAL_NEAREST percept"
  | .packBw true => "PACK_BW inv"
  | .packRed true => "PACK_RED inv"
  | .pack4gray true => "PACK_4GRAY inv"
  | .frameWr fop len true => "FRAME_WR " ++ toString fop.toNat ++ ", " ++ toString len
  | .frameWr fop len false => "FRAME_WR " ++ toString fop.toNat ++ ", " ++ toString len ++ ", noack"
  | .bulk fop => "BULK " ++ toString fop.toNat
  | i => i.mnemonic

end Sys2Proof
end

