-- ==== Sys2Proof/Machine/State.lean ====
section
/-! DEFINITION. Everything the spec gives the machine, as plain data (spec 10_state.md R20 to R56; the agents of
45_transport.md R224), the reasons a step can stop, and the state after power-on reset (70_reset_and_hazards.md R300). -/

namespace Sys2Proof.Machine

/-- Bytes by offset, addresses strictly rising. An unlisted offset is a byte that nothing has written since power-on, so it
has no listed value; reading it gives the free value `Config.powerOnByte` (R52, S1). -/
abbrev Memory := List Host.Cell

/-- The one canonical form: addresses strictly rising. No entry can equal an unlisted offset, which holds no written byte. -/
abbrev Memory.wf (m : Memory) : Prop := m.Pairwise (fun x y => x.1 < y.1)

/-- PIXMEM and PACKMEM (R50, R51), each by byte offset from its own base. -/
structure Buffers where
  pix : Memory
  pack : Memory
  deriving DecidableEq, Repr

/-- The operand CSRs, exactly the list of R25: what a command copies when it is accepted. -/
structure OperandRegs where
  edge : Bool
  imgW : BitVec 16
  imgH : BitVec 16
  thresh : BitVec 16
  interleave : BitVec 16
  packDst : Word
  bulkSrc : Word
  bulkLen : Word
  ackTimeout : Word
  palCnt : BitVec 3
  pal0 : Word
  pal1 : Word
  pal2 : Word
  pal3 : Word
  colorA : Word
  colorB : Word
  frameData0 : Word
  frameData1 : Word
  frameData2 : Word
  frameData3 : Word
  frameData4 : Word
  deriving DecidableEq, Repr

/-- The reset column of R20's table for the operand CSRs (R41, R300, D49). -/
def OperandRegs.reset : OperandRegs where
  edge := false
  imgW := 0
  imgH := 0
  thresh := 128
  interleave := 0
  packDst := 0
  bulkSrc := 0
  bulkLen := 0
  ackTimeout := 0
  palCnt := 3
  pal0 := 0xFF000000
  pal1 := 0xFFFFFFFF
  pal2 := 0xFF0000FF
  pal3 := 0
  colorA := 0
  colorB := 0
  frameData0 := 0
  frameData1 := 0
  frameData2 := 0
  frameData3 := 0
  frameData4 := 0

/-- The stored bits of STATUS (R23). BUSY, LINK_UP and TXQ_EMPTY are views of other state. -/
structure StatusBits where
  done : Bool
  err : Bool
  notify : Bool
  prog : Bool
  permFail : Bool
  deriving DecidableEq, Repr

/-- The error codes of R270. -/
inductive ErrCode where
  | noError
  | illegalCmd
  | busy
  | config
  | transportUnavailable
  | frameTooLarge
  | writeFailed
  | disconnected
  | timeout
  | packSize
  | hazard
  deriving DecidableEq, Repr

/-- The ERR register (R26): CODE and OP. -/
structure ErrReg where
  code : ErrCode
  op : Byte
  deriving DecidableEq, Repr

/-- IRQ_EN (R27). -/
structure IrqEnable where
  doneIe : Bool
  errIe : Bool
  notifyIe : Bool
  progIe : Bool
  deriving DecidableEq, Repr

/-- The result CSRs PACK_LEN, RESULT and RESULT_KEY (R32, R42). -/
structure Results where
  packLen : Word
  result : BitVec 2
  resultKey : Word
  deriving DecidableEq, Repr

/-- The progress CSRs BULK_IDX, BULK_TOTAL and ELAPSED (R34, R35). -/
structure Progress where
  bulkIdx : Word
  bulkTotal : Word
  elapsed : Word
  deriving DecidableEq, Repr

/-- DRIVER_ID, PINCFG_LO and PINCFG_HI (R43). -/
structure DeviceInfo where
  driverId : Byte
  pincfgLo : Word
  pincfgHi : BitVec 24
  deriving DecidableEq, Repr

/-- One entry of TXQ (R53): a frame and its ack flag. -/
structure TxEntry where
  bytes : List Byte
  ack : Bool
  deriving DecidableEq, Repr

/-- The transmit side (R53, R54): TXQ, oldest frame first, `ack_pending` and `wait_cnt`. -/
structure Transmit where
  queue : List TxEntry
  ackPending : Bool
  waitCnt : Word
  deriving DecidableEq, Repr

/-- `phase` of R24. -/
inductive Phase where
  | idle
  | pixel
  | xport
  deriving DecidableEq, Repr

/-- The scheduler states of R230. -/
inductive Sched where
  | run
  | wSpace
  | wAck
  | wDrain
  deriving DecidableEq, Repr

/-- The command processor's sequencing state (R24, R54). `cur` is the running command: its OP byte is `cur_op`, and its
other fields are the word's operands. `pixCursor` is the cursor i of a PIXEL command (for a PACK command, the byte number
b) and `chunkCursor` the chunk cursor c of a transport command, 0 being the frame before the first chunk. -/
structure Engine where
  phase : Phase
  cur : Instr
  pixCursor : Nat
  chunkCursor : Nat
  sched : Sched
  deriving DecidableEq, Repr

/-- The Link agent (R55, R245): `up` is its level, which `link_up` and STATUS.LINK_UP follow; `owed` is its own Boolean;
`stream` is the frame stream of R71, every frame it has taken and delivered, oldest first. -/
structure Link where
  up : Bool
  owed : Bool
  stream : List (List Byte)
  deriving DecidableEq, Repr

/-- A host access's width (R75). -/
inductive Width where
  | w8
  | w16
  | w32
  deriving DecidableEq, Repr

/-- A host bus access (R70, R75) at a bus address. A write carries its datum in the low bits of a word. -/
inductive Access where
  | read (width : Width) (addr : Word)
  | write (width : Width) (addr : Word) (data : Word)
  deriving DecidableEq, Repr

/-- The Link's events (R245). -/
inductive LinkEvent where
  | takeOk
  | takeFail
  | respOk
  | respFail
  | down
  | up
  | notify (message : List Byte)
  deriving DecidableEq, Repr

/-- One agent's step (R224). -/
inductive Turn where
  | host (access : Access)
  | engine
  | link (event : LinkEvent)
  | tick
  deriving DecidableEq, Repr

/-- How much of a running PIXEL command one Engine step does, which R224 and S10 leave open: all that is left of it, or one
index of its loop. Either way the step that accepts the command is the host's and leaves BUSY = 1 (R317). -/
inductive Pace where
  | atOnce
  | byTurns
  deriving DecidableEq, Repr

/-- The whole state (R56), with the Link agent's own (R245) and the model's own fields: `cfg`, the parameters, which
nothing changes; `busData`, what the host's last read returned; `agenda`, the agent steps still to come in their order
(S11); `pace`. -/
structure State where
  cfg : Config
  regs : OperandRegs
  latched : OperandRegs
  status : StatusBits
  error : ErrReg
  irqEn : IrqEnable
  results : Results
  progress : Progress
  retryCnt : BitVec 3
  device : DeviceInfo
  bufs : Buffers
  tx : Transmit
  engine : Engine
  connectReq : Bool
  link : Link
  busData : Word
  agenda : List Turn
  pace : Pace
  deriving DecidableEq, Repr

/-- Why a step stops with a fault. -/
inductive Fault where
  /-- Raised by a host access that is misaligned, of the wrong width, out of its region or unmapped (R76, S2). Safe: R76
  has a model treat the bus error as a fault of the host agent, and the block itself would have gone on unchanged. -/
  | busError
  deriving DecidableEq, Repr

/-- Why a step is refused. -/
inductive Refusal where
  /-- An instruction that has no meaning yet; no arm of `exec` answers so. Safe: the run stops. -/
  | notModelled (mnemonic : String)
  deriving DecidableEq, Repr

/-- R300: the state after power-on of an implementation `cfg` on a link at level `level`. The latched copies, the cursors
and `cur` have no value while idle (R54, S15); the values here are the model's. -/
def State.powerOn (cfg : Config) (level : Bool) : State where
  cfg := cfg
  regs := OperandRegs.reset
  latched := OperandRegs.reset
  status := { done := false, err := false, notify := false, prog := false, permFail := false }
  error := { code := .noError, op := 0 }
  irqEn := { doneIe := false, errIe := false, notifyIe := false, progIe := false }
  results := { packLen := 0, result := 0, resultKey := 0 }
  progress := { bulkIdx := 0, bulkTotal := 0, elapsed := 0 }
  retryCnt := 0
  device := { driverId := 0, pincfgLo := 0, pincfgHi := 0 }
  bufs := { pix := [], pack := [] }
  tx := { queue := [], ackPending := false, waitCnt := 0 }
  engine := { phase := .idle, cur := .nop, pixCursor := 0, chunkCursor := 0, sched := .run }
  connectReq := false
  link := { up := level, owed := false, stream := [] }
  busData := 0
  agenda := []
  pace := .atOnce

/-- The machine right after power-on reset: any legal configuration, the link down (an `up` event may follow at once). -/
def State.reset : State := State.powerOn Config.chip false

end Sys2Proof.Machine
end

