-- ==== Sys2Proof/Machine/Operands.lean ====
section
/-! DEFINITION. What commands compute from their operands, with no state: the arithmetic primitives of spec 00_scope.md R8,
the geometry (R11), the operand forms (10_state.md R40 to R44), luminance (R132), gray levels (R149), distance keys and
lookup (R181), plane bits (R200, R201), neighbour targets (R142, R144) and frames (R220, R240). -/

namespace Sys2Proof.Machine

/-! ### Division and rounding (R8) -/

/-- R8: floor division, toward minus infinity. -/
def fdiv (a b : Int) : Int := Int.fdiv a b

/-- R8: `rne(a/b)`, the nearest integer, ties to even. -/
def rneDiv (a b : Nat) : Nat :=
  let q := a / b
  let r := a % b
  if 2 * r < b then q else if b < 2 * r then q + 1 else if q % 2 = 0 then q else q + 1

/-- R8: `rhu(a/b)`, the nearest integer, ties upward. -/
def rhuDiv (a b : Nat) : Nat := (2 * a + b) / (2 * b)

/-- R8: saturation to 0..255. -/
def sat8 (v : Int) : Byte := BitVec.ofNat 8 (min 255 (max 0 v)).toNat

/-- R7, R9: a natural number stored in a 32-bit CSR, truncated to it. -/
def toWord (n : Nat) : Word := BitVec.ofNat 32 n

/-! ### Geometry (R11, R29) -/

/-- W of R11. -/
def OperandRegs.width (r : OperandRegs) : Nat := r.imgW.toNat

/-- H of R11. -/
def OperandRegs.height (r : OperandRegs) : Nat := r.imgH.toNat

/-- N of R11. -/
def OperandRegs.pixels (r : OperandRegs) : Nat := r.width * r.height

/-- R112's "geometry ok". -/
def geometryOk (c : Config) (r : OperandRegs) : Bool :=
  decide (1 ≤ r.width) && decide (1 ≤ r.height) && decide (r.pixels ≤ c.pixMax)

/-! ### Colours (R40, R180) -/

/-- A pixel's channels (R9). -/
inductive Channel where
  | R
  | G
  | B
  | A
  deriving DecidableEq, Repr

/-- The byte offset of a channel within its pixel (R9, R11). -/
def channelOffset : Channel → Nat
  | .R => 0
  | .G => 1
  | .B => 2
  | .A => 3

/-- The byte offset of channel `c` of pixel `i` in PIXMEM (R9, R11). -/
def pixAddr (i : Nat) (c : Channel) : Nat := 4 * i + channelOffset c

/-- The (R, G, B) of a colour; alpha takes no part (R180). -/
structure Rgb where
  r : Byte
  g : Byte
  b : Byte
  deriving DecidableEq, Repr

/-- R40: R in bits 7..0, G in 15..8, B in 23..16 of an RGBA word. -/
def colourOf (w : Word) : Rgb where
  r := w.extractLsb' 0 8
  g := w.extractLsb' 8 8
  b := w.extractLsb' 16 8

/-- Palette entry `k` (R40). -/
def OperandRegs.palEntry (r : OperandRegs) (k : Nat) : Rgb :=
  match k with
  | 0 => colourOf r.pal0
  | 1 => colourOf r.pal1
  | 2 => colourOf r.pal2
  | _ => colourOf r.pal3

/-- The palette length the commands accept: 1..4 (R40, R112). -/
def paletteOk (r : OperandRegs) : Bool := decide (1 ≤ r.palCnt.toNat) && decide (r.palCnt.toNat ≤ 4)

/-! ### Luminance (R132) and gray levels (R149) -/

/-- R132: L(r, g, b). -/
def luminance (c : Rgb) : Nat := (299 * c.r.toNat + 587 * c.g.toNat + 114 * c.b.toNat) / 1000

/-- R149: `k`, the index of the level nearest to `v` of `n + 1` levels. -/
def levelIndex (v n : Nat) : Nat := (2 * v * n + 255) / 510

/-- R149: Q(v, n). -/
def level (v n : Nat) : Nat := rneDiv (levelIndex v n * 255) n

/-! ### Distance keys and lookup (R181) -/

/-- KeyE of R181. -/
def keyEuclid (a b : Rgb) : Nat :=
  let dr : Int := (a.r.toNat : Int) - b.r.toNat
  let dg : Int := (a.g.toNat : Int) - b.g.toNat
  let db : Int := (a.b.toNat : Int) - b.b.toNat
  (dr * dr + dg * dg + db * db).toNat

/-- KeyP of R181. -/
def keyPercept (a b : Rgb) : Nat :=
  let dr : Int := (a.r.toNat : Int) - b.r.toNat
  let dg : Int := (a.g.toNat : Int) - b.g.toNat
  let db : Int := (a.b.toNat : Int) - b.b.toNat
  let rs : Int := (a.r.toNat : Int) + b.r.toNat
  ((1024 + rs) * (dr * dr) + 2048 * (dg * dg) + (1534 - rs) * (db * db)).toNat

/-- Key_m of R181. -/
def distanceKey (m : Metric) (a b : Rgb) : Nat :=
  match m with
  | .euclid => keyEuclid a b
  | .percept => keyPercept a b

/-- The first index below `n` that gives the least key (R181: ties to the lowest index). -/
def firstLeast (key : Nat → Nat) : Nat → Nat
  | 0 => 0
  | n + 1 =>
    let k := firstLeast key n
    if key n < key k then n else k

/-- Nearest(c, m) of R181 over entries 0..PAL_CNT-1. -/
def nearest (r : OperandRegs) (m : Metric) (c : Rgb) : Nat :=
  firstLeast (fun k => distanceKey m c (r.palEntry k)) r.palCnt.toNat

/-! ### Ordered dither (R150, R151) -/

/-- BAYER[a][b] of R150. -/
def bayerAt (c : Config) (a b : Nat) : Nat := c.bayer.getD (4 * a + b) 0

/-! ### Error diffusion (R142 to R144) -/

/-- A neighbour (dx, dy, w) of R142. -/
structure Neighbour where
  dx : Int
  dy : Nat
  weight : Int
  deriving DecidableEq, Repr

/-- NB_FS of R142, in its order. -/
def nbFs : List Neighbour := [⟨1, 0, 7⟩, ⟨-1, 1, 3⟩, ⟨0, 1, 5⟩, ⟨1, 1, 1⟩]

/-- The rate of NB_FS (R142). -/
def rateFs : Int := 16

/-- NB_ATK of R142, in its order. -/
def nbAtk : List Neighbour := [⟨1, 0, 1⟩, ⟨2, 0, 1⟩, ⟨-1, 1, 1⟩, ⟨0, 1, 1⟩, ⟨1, 1, 1⟩, ⟨0, 2, 1⟩]

/-- The rate of NB_ATK (R142). -/
def rateAtk : Int := 8

/-- FS_CUT of R6: the cut of gray Floyd-Steinberg, whatever THRESH holds. -/
def fsCut : Nat := 129

/-- R143: the quantization error, divided once with floor. -/
def quantError (old new : Nat) (rate : Int) : Int := fdiv ((old : Int) - new) rate

/-- WRAP of R144: the flat-buffer target of pixel `i`, dropped at or past the image's end. -/
def targetWrap (r : OperandRegs) (i : Nat) (nb : Neighbour) : Option Nat :=
  let j : Int := i + nb.dy * r.width + nb.dx
  if 0 ≤ j ∧ j < r.pixels then some j.toNat else none

/-- CLIP of R144: the target inside the image, or none. -/
def targetClip (r : OperandRegs) (i : Nat) (nb : Neighbour) : Option Nat :=
  let x : Int := (i % r.width : Nat) + nb.dx
  let y : Nat := i / r.width + nb.dy
  if 0 ≤ x ∧ x < r.width ∧ y < r.height then some (y * r.width + x.toNat) else none

/-- The target of a neighbour under the latched edge policy (R144; CTRL.EDGE, R22). -/
def target (r : OperandRegs) (i : Nat) (nb : Neighbour) : Option Nat :=
  if r.edge then targetClip r i nb else targetWrap r i nb

/-! ### Plane bits (R200, R201, R205, R206) -/

/-- BitBW of R200. -/
def bitBw (c : Rgb) : Bool := c.r != 0 && c.g != 0 && c.b != 0

/-- BitRED of R200. -/
def bitRed (c : Rgb) : Bool := !(c.r != 0 && c.g == 0 && c.b == 0)

/-- Lv of R205. -/
def grayLevel (v : Byte) : Nat := v.toNat / 85

/-- Hi of R205. -/
def grayHigh (v : Byte) : Bool := grayLevel v / 2 % 2 == 1

/-- Lo of R205. -/
def grayLow (v : Byte) : Bool := grayLevel v % 2 == 1

/-- R201: eight bits of a plane, pixel `8b` in bit 7. -/
def packByte (f : Nat → Bool) (b : Nat) : Byte :=
  BitVec.ofNat 8 (((List.range 8).map fun k => (f (8 * b + k)).toNat * 2 ^ (7 - k)).sum)

/-- R206: inversion of a byte of a plane. -/
def invertIf (inv : Bool) (v : Byte) : Byte := if inv then ~~~v else v

/-! ### Frames (R44, R105, R220, R240, R242) -/

/-- CHUNK of R6. -/
def chunkSize : Nat := 19

/-- FRAME_MAX of R6. -/
def frameMax : Nat := 20

/-- MAX_RETRY of R6. -/
def maxRetry : Nat := 5

/-- Byte `k` of the FRAME_DATA registers (R44). -/
def OperandRegs.frameByte (r : OperandRegs) (k : Nat) : Byte :=
  let w := match k / 4 with
    | 0 => r.frameData0
    | 1 => r.frameData1
    | 2 => r.frameData2
    | 3 => r.frameData3
    | _ => r.frameData4
  w.extractLsb' (8 * (k % 4)) 8

/-- Frame(op, data) of R220. -/
def frame (op : Byte) (data : List Byte) : List Byte := op :: data

/-- T of R240: the number of chunks of a payload. -/
def chunkCount (len : Nat) : Nat := (len + 18) / chunkSize

/-- R240: the number of data bytes of chunk `c` (1-based). -/
def chunkLength (len c : Nat) : Nat := min chunkSize (len - chunkSize * (c - 1))

/-- R242: whether chunk `c` (1-based) is acknowledged. -/
def chunkAcked (interleave c : Nat) : Bool := c % (interleave + 1) == 0

end Sys2Proof.Machine
end

