-- ==== Sys2Proof/Machine/Flags.lean ====
section
/-! DEFINITION. Every flag and status computation: STATUS and its views (spec 10_state.md R23), ERR (R26, 60_exceptions.md
R270), IRQ_EN (R27), the interrupt line (R283), DONE (R281), and what the Engine waits on (45_transport.md R230 to R236). -/

namespace Sys2Proof.Machine

/-- STATUS.BUSY (R23). -/
def State.busy (s : State) : Bool := s.engine.phase != .idle

/-- STATUS.TXQ_EMPTY (R23). -/
def State.txqEmpty (s : State) : Bool := s.tx.queue.isEmpty

/-- `cur_op` of R24. -/
def State.curOp (s : State) : Byte := s.engine.cur.opcode

/-- ERR.CODE's value (R270). -/
def errCodeByte : ErrCode → Byte
  | .noError => 0x00
  | .illegalCmd => 0x01
  | .busy => 0x02
  | .config => 0x03
  | .transportUnavailable => 0x04
  | .frameTooLarge => 0x05
  | .writeFailed => 0x06
  | .disconnected => 0x07
  | .timeout => 0x08
  | .packSize => 0x09
  | .hazard => 0x0A

/-- A word from its bits' values: bit `k` is set where the list says so. -/
def wordOfBits (bits : List (Nat × Bool)) : Word :=
  toWord ((bits.map fun p => p.2.toNat * 2 ^ p.1).sum)

/-- What a read of STATUS gives (R23). -/
def State.statusWord (s : State) : Word :=
  wordOfBits [(0, s.busy), (1, s.status.done), (2, s.status.err), (3, s.status.notify), (4, s.status.prog), (5, s.link.up),
    (6, s.status.permFail), (7, s.txqEmpty)]

/-- What a read of ERR gives (R26). -/
def State.errWord (s : State) : Word := toWord ((errCodeByte s.error.code).toNat + s.error.op.toNat * 2 ^ 8)

/-- What a read of IRQ_EN gives (R27). -/
def State.irqEnWord (s : State) : Word :=
  wordOfBits [(1, s.irqEn.doneIe), (2, s.irqEn.errIe), (3, s.irqEn.notifyIe), (4, s.irqEn.progIe)]

/-- What a write of IRQ_EN stores (R27). -/
def irqEnableOf (w : Word) : IrqEnable where
  doneIe := w.getLsbD 1
  errIe := w.getLsbD 2
  notifyIe := w.getLsbD 3
  progIe := w.getLsbD 4

/-- R283: the interrupt line. -/
def State.irq (s : State) : Bool :=
  s.status.done && s.irqEn.doneIe || s.status.err && s.irqEn.errIe || s.status.notify && s.irqEn.notifyIe ||
    s.status.prog && s.irqEn.progIe

/-- R281, R111: a command completes without error, IDLE and DONE together. -/
def State.complete (s : State) : State :=
  { s with engine := { s.engine with phase := .idle }, status := { s.status with done := true } }

/-- R235, R252: whether FRAME_WR or BULK runs. -/
def State.sessionRunning (s : State) : Bool :=
  s.engine.phase == .xport &&
    match s.engine.cur with
    | .frameWr _ _ _ => true
    | .bulk _ => true
    | _ => false

/-- Whether TXQ has a free slot (R232). -/
def State.txqHasSpace (s : State) : Bool := decide (s.tx.queue.length < s.cfg.txqDepth)

/-- Whether TXQ is empty and no response is outstanding (R233). -/
def State.drained (s : State) : Bool := s.tx.queue.isEmpty && !s.tx.ackPending

/-- R10, R236: whether the Engine is held in a wait, that is in a wait state whose condition does not hold. -/
def State.waiting (s : State) : Bool :=
  s.sessionRunning &&
    match s.engine.sched with
    | .run => false
    | .wSpace => !s.txqHasSpace
    | .wAck => s.tx.ackPending
    | .wDrain => !s.drained

end Sys2Proof.Machine
end

