-- ==== Sys2Proof/Machine/Ops.lean ====
section
/-! DEFINITION. The named operations over memory and state: the primitives of spec 00_scope.md R9, TAKING AN ERROR
(60_exceptions.md R280, with the clean-ups of 45_transport.md R237 and R252) and the return from one (R284), the reconnect
policy (R285), soft reset (R301), and acceptance of a command with the running of its loop (30_encoding.md R110, R111). -/

namespace Sys2Proof.Machine

/-! ### Memory (R9, R52) -/

/-- The byte written at offset `a`, if one was since power-on. -/
def memCell : Memory → Nat → Option Byte
  | [], _ => none
  | (b, v) :: rest, a => if a = b then some v else memCell rest a

/-- The byte at offset `a` of a memory: what was written there last, or the free value of power-on (R52, S1). -/
def memByte (sp : Space) (m : Memory) (a : Nat) : Byte := (memCell m a).getD (Config.powerOnByte sp a)

/-- Writing one byte; the entries stay in rising order. -/
def memPut : Memory → Nat → Byte → Memory
  | [], a, v => [(a, v)]
  | (b, w) :: rest, a, v =>
    if a < b then (a, v) :: (b, w) :: rest else if a = b then (a, v) :: rest else (b, w) :: memPut rest a v

/-- MemRead of R9: `n` bytes from offset `a` upward, little-endian. -/
def memRead (sp : Space) (m : Memory) (a : Nat) : Nat → Nat
  | 0 => 0
  | n + 1 => (memByte sp m a).toNat + 256 * memRead sp m (a + 1) n

/-- MemWrite of R9: the low `n` bytes of `v` from offset `a` upward, little-endian. -/
def memWrite (m : Memory) (a : Nat) : Nat → Nat → Memory
  | 0, _ => m
  | n + 1, v => memWrite (memPut m a (BitVec.ofNat 8 v)) (a + 1) n (v / 256)

/-- Pix(i, c) of R9. -/
def pix (m : Memory) (i : Nat) (c : Channel) : Byte := memByte .pixmem m (pixAddr i c)

/-- SetPix(i, c, v) of R9: every engine store into PIXMEM, saturating. -/
def setPix (m : Memory) (i : Nat) (c : Channel) (v : Int) : Memory := memPut m (pixAddr i c) (sat8 v)

/-- The colour of pixel `i` (R200, R155). -/
def pixRgb (m : Memory) (i : Nat) : Rgb where
  r := pix m i .R
  g := pix m i .G
  b := pix m i .B

/-- SetGray(i, v) of R140: R, G and B; alpha is not written. -/
def setGray (m : Memory) (i : Nat) (v : Int) : Memory :=
  setPix (setPix (setPix m i .R v) i .G v) i .B v

/-- One byte written into PACKMEM by a PACK command (R203). -/
def Buffers.putPack (b : Buffers) (a : Nat) (v : Byte) : Buffers := { b with pack := memPut b.pack a v }

/-! ### Taking an error and returning from one (R280, R284) -/

/-- R280: the record that every error makes. ERR holds the latest. -/
def State.raise (code : ErrCode) (op : Byte) (s : State) : State :=
  { s with error := { code := code, op := op }, status := { s.status with err := true } }

/-- R285: one reconnect attempt, or the terminal state when the budget is spent. -/
def State.reconnect (s : State) : State :=
  if s.retryCnt.toNat < maxRetry then { s with retryCnt := s.retryCnt + 1, connectReq := true }
  else { s with status := { s.status with permFail := true } }

/-- TXQ <- empty; ack_pending <- 0 (R237, R252, R301). -/
def State.flushTx (s : State) : State :=
  { s with tx := { s.tx with queue := [], ackPending := false } }

/-- R280: an abort's end of the running command; DONE is not set. -/
def State.endCommand (s : State) : State := { s with engine := { s.engine with phase := .idle } }

/-- R237 with R280 and R285: a write failure or a timeout ends the running transport command. -/
def State.abortTransport (code : ErrCode) (s : State) : State :=
  (s.flushTx.reconnect.raise code s.curOp).endCommand

/-- R252 with R280: a disconnect ends the running transport command and discards its progress. -/
def State.abortDisconnected (s : State) : State :=
  let t := s.flushTx
  ({ t with progress := { t.progress with bulkIdx := 0, bulkTotal := 0 } }.raise .disconnected s.curOp).endCommand

/-- R284, R23: the return from an error, a host write of 1 to STATUS.ERR. -/
def State.clearError (s : State) : State :=
  { s with error := { code := .noError, op := 0 }, status := { s.status with err := false } }

/-- R234: a successful write ends a run of consecutive failures. -/
def State.writeSucceeded (s : State) : State := { s with retryCnt := 0 }

/-- R301: soft reset. Every CSR and the transmit state take their reset values; the memories, the Link's own state, and
the model's own fields stay. -/
def State.softReset (s : State) : State :=
  { State.powerOn s.cfg s.link.up with
    latched := s.latched
    bufs := s.bufs
    engine := { s.engine with phase := .idle }
    link := s.link
    busData := s.busData
    agenda := s.agenda
    pace := s.pace }

/-! ### Acceptance and the PIXEL commands' loops (R110, R111, R141) -/

/-- What a PIXEL command does once accepted: how many times its loop runs, what the loop does to the memories at each index,
and what it leaves in the result CSRs in its last step (R313). It reads the latched operands only (R25). -/
structure PixelProgram where
  count : OperandRegs → Nat
  body : Config → OperandRegs → Nat → Buffers → Buffers
  finish : OperandRegs → Results → Results

/-- R110 steps 3 and 5: latch the operands and begin command `i` in phase `ph`. -/
def State.begin (i : Instr) (ph : Phase) (s : State) : State :=
  { s with latched := s.regs, engine := { phase := ph, cur := i, pixCursor := 0, chunkCursor := 0, sched := .run } }

/-- R110: the order of acceptance for a legal word. A running command rejects it with BUSY; the operand checks of R112
come next, the first failure being recorded; otherwise the command is begun. -/
def acceptCommand (i : Instr) (ph : Phase) (check : State → Option ErrCode) (start : State → State) (s : State) :
    Host.Outcome State Fault Refusal :=
  if s.busy then .next (s.raise .busy i.opcode)
  else
    match check s with
    | some code => .next (s.raise code i.opcode)
    | none => .next (start (s.begin i ph))

/-- The memories after the `n` indices of the loop from `start` on, in increasing order (R141). -/
def PixelProgram.loop (p : PixelProgram) (c : Config) (r : OperandRegs) (start n : Nat) (b : Buffers) : Buffers :=
  (List.range' start n).foldl (fun b i => p.body c r i b) b

/-- The last step of a PIXEL command: the result CSRs are written together with DONE (R313, R111). -/
def PixelProgram.last (p : PixelProgram) (s : State) : State :=
  { s with results := p.finish s.latched s.results }.complete

/-- One Engine step that runs all that is left of a PIXEL command (R224). -/
def PixelProgram.runWhole (p : PixelProgram) (s : State) : State :=
  let rest := p.count s.latched - s.engine.pixCursor
  p.last { s with
    bufs := p.loop s.cfg s.latched s.engine.pixCursor rest s.bufs
    engine := { s.engine with pixCursor := s.engine.pixCursor + rest } }

/-- One Engine step of a PIXEL command taken by turns: the loop's body at the cursor, or the command's last step. -/
def PixelProgram.runIndex (p : PixelProgram) (s : State) : State :=
  if s.engine.pixCursor < p.count s.latched then
    { s with
      bufs := p.body s.cfg s.latched s.engine.pixCursor s.bufs
      engine := { s.engine with pixCursor := s.engine.pixCursor + 1 } }
  else p.last s

/-- One Engine step of a running PIXEL command (R224, S10). -/
def PixelProgram.turn (p : PixelProgram) (s : State) : State :=
  match s.pace with
  | .atOnce => p.runWhole s
  | .byTurns => p.runIndex s

/-- A PIXEL command's acceptance (R110): BUSY = 1, and the command's own steps are the Engine's (R224, R317). -/
def acceptPixel (i : Instr) (check : State → Option ErrCode) (s : State) : Host.Outcome State Fault Refusal :=
  acceptCommand i .pixel check (fun t => t) s

/-! ### Operand checks (R112) -/

/-- No check (NOP, PAL_DIST, CONNECT). -/
def checkNone (_ : State) : Option ErrCode := none

/-- geometry ok, else CONFIG. -/
def checkGeometry (s : State) : Option ErrCode := if geometryOk s.cfg s.regs then none else some .config

/-- 1 <= PAL_CNT <= 4, else CONFIG. -/
def checkPalette (s : State) : Option ErrCode := if paletteOk s.regs then none else some .config

/-- The next check after one that passes (R112: in the order listed, the first failure). -/
def thenCheck (first : Option ErrCode) (next : Option ErrCode) : Option ErrCode :=
  match first with
  | some e => some e
  | none => next

/-- DTH_GRAY: geometry, then THRESH >= 2. -/
def checkGray (s : State) : Option ErrCode :=
  thenCheck (checkGeometry s) (if 2 ≤ s.regs.thresh.toNat then none else some .config)

/-- DTH_PFS and DTH_PATK: geometry, then the palette length. -/
def checkPaletteDither (s : State) : Option ErrCode := thenCheck (checkGeometry s) (checkPalette s)

/-- A PACK command of `planes` planes: geometry, then N mod 8 = 0, then the destination range. -/
def checkPack (planes : Nat) (s : State) : Option ErrCode :=
  thenCheck (checkGeometry s)
    (thenCheck (if s.regs.pixels % 8 = 0 then none else some .packSize)
      (if s.regs.packDst.toNat + planes * (s.regs.pixels / 8) ≤ s.cfg.packBytes then none else some .config))

/-- STATUS.LINK_UP = 1 and STATUS.PERM_FAIL = 0, else TRANSPORT_UNAVAILABLE. -/
def checkLink (s : State) : Option ErrCode :=
  if s.link.up && !s.status.permFail then none else some .transportUnavailable

/-- FRAME_WR: the length, then the link. -/
def checkFrame (len : Nat) (s : State) : Option ErrCode :=
  thenCheck (if len ≤ chunkSize then none else some .frameTooLarge) (checkLink s)

/-- BULK: the source range, without wrap-around, then the link. -/
def checkBulk (s : State) : Option ErrCode :=
  thenCheck (if s.regs.bulkSrc.toNat + s.regs.bulkLen.toNat ≤ s.cfg.packBytes then none else some .config) (checkLink s)

end Sys2Proof.Machine
end

