-- ==== Sys2Proof/Machine/Csr.lean ====
section
/-! DEFINITION. The CSR bank as the host sees it (spec 10_state.md R20 to R44). -/

namespace Sys2Proof.Machine

/-- The value a host read of the CSR at byte offset `off` returns (R20's table). A write-only register, a reserved offset
and a reserved bit read 0. -/
def csrRead (off : Nat) (s : State) : Word :=
  match off with
  | 0x000 => 0x44490007
  | 0x004 => wordOfBits [(1, s.regs.edge)]
  | 0x008 => s.statusWord
  | 0x00C => s.errWord
  | 0x010 => s.irqEnWord
  | 0x014 => 0
  | 0x018 => s.regs.imgW.setWidth 32
  | 0x01C => s.regs.imgH.setWidth 32
  | 0x020 => s.regs.thresh.setWidth 32
  | 0x024 => s.regs.interleave.setWidth 32
  | 0x028 => s.regs.packDst
  | 0x02C => s.results.packLen
  | 0x030 => s.regs.bulkSrc
  | 0x034 => s.regs.bulkLen
  | 0x038 => s.progress.bulkIdx
  | 0x03C => s.progress.bulkTotal
  | 0x040 => s.progress.elapsed
  | 0x044 => s.regs.ackTimeout
  | 0x048 => s.retryCnt.setWidth 32
  | 0x04C => toWord s.tx.queue.length
  | 0x050 => s.regs.palCnt.setWidth 32
  | 0x054 => s.regs.pal0
  | 0x058 => s.regs.pal1
  | 0x05C => s.regs.pal2
  | 0x060 => s.regs.pal3
  | 0x064 => s.regs.colorA
  | 0x068 => s.regs.colorB
  | 0x06C => s.results.result.setWidth 32
  | 0x070 => s.results.resultKey
  | 0x074 => s.device.driverId.setWidth 32
  | 0x078 => s.device.pincfgLo
  | 0x07C => s.device.pincfgHi.setWidth 32
  | 0x080 => s.regs.frameData0
  | 0x084 => s.regs.frameData1
  | 0x088 => s.regs.frameData2
  | 0x08C => s.regs.frameData3
  | 0x090 => s.regs.frameData4
  | _ => 0

/-- A host write of STATUS: each bit written 1 of DONE, ERR, NOTIFY and PROG clears, ERR together with the ERR register
(R23, R284). -/
def writeStatus (v : Word) (s : State) : State :=
  let t := if v.getLsbD 2 then s.clearError else s
  { t with status :=
      { t.status with
        done := t.status.done && !v.getLsbD 1
        notify := t.status.notify && !v.getLsbD 3
        prog := t.status.prog && !v.getLsbD 4 } }

/-- A host write of CTRL: SRST resets and leaves EDGE at its reset value, otherwise EDGE takes bit 1 (R22). -/
def writeCtrl (v : Word) (s : State) : State :=
  if v.getLsbD 0 then s.softReset else { s with regs := { s.regs with edge := v.getLsbD 1 } }

/-- What a host write does to the operand CSR at byte offset `off`, truncated to its field; an offset that holds none of
them changes nothing (R20). -/
def writeOperand (off : Nat) (v : Word) (r : OperandRegs) : OperandRegs :=
  match off with
  | 0x018 => { r with imgW := v.setWidth 16 }
  | 0x01C => { r with imgH := v.setWidth 16 }
  | 0x020 => { r with thresh := v.setWidth 16 }
  | 0x024 => { r with interleave := v.setWidth 16 }
  | 0x028 => { r with packDst := v }
  | 0x030 => { r with bulkSrc := v }
  | 0x034 => { r with bulkLen := v }
  | 0x044 => { r with ackTimeout := v }
  | 0x050 => { r with palCnt := v.setWidth 3 }
  | 0x054 => { r with pal0 := v }
  | 0x058 => { r with pal1 := v }
  | 0x05C => { r with pal2 := v }
  | 0x060 => { r with pal3 := v }
  | 0x064 => { r with colorA := v }
  | 0x068 => { r with colorB := v }
  | 0x080 => { r with frameData0 := v }
  | 0x084 => { r with frameData1 := v }
  | 0x088 => { r with frameData2 := v }
  | 0x08C => { r with frameData3 := v }
  | 0x090 => { r with frameData4 := v }
  | _ => r

/-- A host write of any CSR but CMD (R20). A read-only or reserved offset ignores it. -/
def csrWrite (off : Nat) (v : Word) (s : State) : State :=
  match off with
  | 0x004 => writeCtrl v s
  | 0x008 => writeStatus v s
  | 0x010 => { s with irqEn := irqEnableOf v }
  | _ => { s with regs := writeOperand off v s.regs }

end Sys2Proof.Machine
end

