-- ==== Sys2Proof/Machine/Dither.lean ====
section
/-! DEFINITION. The eight dither commands (spec 42_dither.md R140 to R157): for each its acceptance, which is the host's step,
and the program that the Engine then runs (45_transport.md R224). -/

namespace Sys2Proof.Machine

/-! ### Threshold, level and ordered variants (R146 to R151) -/

/-- A gray command whose pixels do not affect one another: pixel `i` becomes `f i v` for its value `v` (R140). -/
def grayProgram (f : Config → OperandRegs → Nat → Nat → Nat) : PixelProgram where
  count := fun r => r.pixels
  body := fun c r i b => { b with pix := setGray b.pix i (f c r i (pix b.pix i .R).toNat) }
  finish := fun _ res => res

/-- R146's tone. -/
def toneNone (_ : Config) (r : OperandRegs) (_ v : Nat) : Nat := if v < r.thresh.toNat then 0 else 255

/-- R146: DTH_NONE's loop. -/
def dthNoneProgram : PixelProgram := grayProgram toneNone

/-- R146 DTH_NONE: flat binary threshold. -/
def execDthNone (s : State) : Host.Outcome State Fault Refusal := acceptPixel .dthNone checkGeometry s

/-- R147's tone: THRESH gray levels. -/
def toneGray (_ : Config) (r : OperandRegs) (_ v : Nat) : Nat := level v (r.thresh.toNat - 1)

/-- R147: DTH_GRAY's loop. -/
def dthGrayProgram : PixelProgram := grayProgram toneGray

/-- R147 DTH_GRAY: N discrete gray levels. -/
def execDthGray (s : State) : Host.Outcome State Fault Refusal := acceptPixel .dthGray checkGray s

/-- R148's tone: four gray levels. -/
def tone4gray (_ : Config) (_ : OperandRegs) (_ v : Nat) : Nat := level v 3

/-- R148: DTH_4GRAY's loop. -/
def dth4grayProgram : PixelProgram := grayProgram tone4gray

/-- R148 DTH_4GRAY: the levels 0, 85, 170 and 255. -/
def execDth4gray (s : State) : Host.Outcome State Fault Refusal := acceptPixel .dth4gray checkGeometry s

/-- R151's tone: the column index selects the matrix row. -/
def toneBayer (c : Config) (r : OperandRegs) (i v : Nat) : Nat :=
  let x := i % r.width
  let y := i / r.width
  if v + bayerAt c (x % 4) (y % 4) < 2 * r.thresh.toNat then 0 else 255

/-- R151: DTH_BAYER's loop. -/
def dthBayerProgram : PixelProgram := grayProgram toneBayer

/-- R151 DTH_BAYER: ordered dither with the 4x4 matrix. -/
def execDthBayer (s : State) : Host.Outcome State Fault Refusal := acceptPixel .dthBayer checkGeometry s

/-! ### Error diffusion (R145, R152, R155) -/

/-- The writes of one existing target: the channels in order, each store saturating (R145). -/
def diffuseInto (m : Memory) (j : Nat) (weight : Int) (errs : List (Channel × Int)) : Memory :=
  errs.foldl (fun m p => setPix m j p.1 ((pix m j p.1).toNat + p.2 * weight)) m

/-- R145: Diffuse(i, NB, chans, e), the channels with their errors in the order R, G, B. -/
def diffuse (r : OperandRegs) (nbs : List Neighbour) (errs : List (Channel × Int)) (i : Nat) (m : Memory) : Memory :=
  nbs.foldl (fun m nb => match target r i nb with
    | some j => diffuseInto m j nb.weight errs
    | none => m) m

/-- R152: GrayED(i, cut, rate, NB). -/
def grayEd (r : OperandRegs) (cut : Nat) (rate : Int) (nbs : List Neighbour) (m : Memory) (i : Nat) : Memory :=
  let old := (pix m i .R).toNat
  let new := if old < cut then 0 else 255
  let m1 := diffuse r nbs [(.R, quantError old new rate)] i (setPix m i .R new)
  let g := (pix m1 i .R).toNat
  setPix (setPix m1 i .G g) i .B g

/-- R155: PalED(i, rate, NB). -/
def palEd (r : OperandRegs) (rate : Int) (nbs : List Neighbour) (m : Memory) (i : Nat) : Memory :=
  let c := pixRgb m i
  let p := r.palEntry (nearest r .euclid c)
  let m1 := setPix (setPix (setPix m i .R p.r.toNat) i .G p.g.toNat) i .B p.b.toNat
  diffuse r nbs
    [(.R, quantError c.r.toNat p.r.toNat rate), (.G, quantError c.g.toNat p.g.toNat rate),
     (.B, quantError c.b.toNat p.b.toNat rate)] i m1

/-- A command that runs a step over every pixel in order (R141). -/
def pixelwiseProgram (f : OperandRegs → Memory → Nat → Memory) : PixelProgram where
  count := fun r => r.pixels
  body := fun _ r i b => { b with pix := f r b.pix i }
  finish := fun _ res => res

/-- R153: DTH_FS's loop. -/
def dthFsProgram : PixelProgram := pixelwiseProgram fun r => grayEd r fsCut rateFs nbFs

/-- R153 DTH_FS: gray Floyd-Steinberg. -/
def execDthFs (s : State) : Host.Outcome State Fault Refusal := acceptPixel .dthFs checkGeometry s

/-- R154: DTH_ATK's loop. -/
def dthAtkProgram : PixelProgram := pixelwiseProgram fun r => grayEd r r.thresh.toNat rateAtk nbAtk

/-- R154 DTH_ATK: gray Atkinson. -/
def execDthAtk (s : State) : Host.Outcome State Fault Refusal := acceptPixel .dthAtk checkGeometry s

/-- R156: DTH_PFS's loop. -/
def dthPfsProgram : PixelProgram := pixelwiseProgram fun r => palEd r rateFs nbFs

/-- R156 DTH_PFS: palette error diffusion with Floyd-Steinberg weights. -/
def execDthPfs (s : State) : Host.Outcome State Fault Refusal := acceptPixel .dthPfs checkPaletteDither s

/-- R157: DTH_PATK's loop. -/
def dthPatkProgram : PixelProgram := pixelwiseProgram fun r => palEd r rateAtk nbAtk

/-- R157 DTH_PATK: palette error diffusion with Atkinson weights. -/
def execDthPatk (s : State) : Host.Outcome State Fault Refusal := acceptPixel .dthPatk checkPaletteDither s

end Sys2Proof.Machine
end

