-- ==== Sys2Proof/Machine/Luma.lean ====
section
/-! DEFINITION. NOP and LUMA (spec 41_luma.md R130, R131): for each its acceptance, which is the host's step, and the program
that the Engine then runs (45_transport.md R224). -/

namespace Sys2Proof.Machine

/-- R131: no loop, no result. -/
def nopProgram : PixelProgram where
  count := fun _ => 0
  body := fun _ _ _ b => b
  finish := fun _ res => res

/-- R131 NOP: do nothing and complete. -/
def execNop (s : State) : Host.Outcome State Fault Refusal := acceptPixel .nop checkNone s

/-- R130: pixel `i` takes its luminance in R, G and B. -/
def lumaPixel (m : Memory) (i : Nat) : Memory := setGray m i (luminance (pixRgb m i))

/-- R130: LUMA's loop. -/
def lumaProgram : PixelProgram where
  count := fun r => r.pixels
  body := fun _ _ i b => { b with pix := lumaPixel b.pix i }
  finish := fun _ res => res

/-- R130 LUMA: the image to grayscale in place. -/
def execLuma (s : State) : Host.Outcome State Fault Refusal := acceptPixel .luma checkGeometry s

end Sys2Proof.Machine
end

