-- ==== Sys2Proof/Machine/Pack.lean ====
section
/-! DEFINITION. The bit-plane packer (spec 44_pack.md R203 to R206): for each command its acceptance, which is the host's step,
and the program that the Engine then runs (45_transport.md R224). -/

namespace Sys2Proof.Machine

/-- Byte `b` of a plane, inverted if the command asks for it (R201, R206). -/
def planeByte (bit : Nat → Bool) (inv : Bool) (b : Nat) : Byte := invertIf inv (packByte bit b)

/-- R203, R204: a one-plane command over the plane test `bit`. -/
def planeProgram (bit : Rgb → Bool) (inv : Bool) : PixelProgram where
  count := fun r => r.pixels / 8
  body := fun _ r b bufs => bufs.putPack (r.packDst.toNat + b) (planeByte (fun i => bit (pixRgb bufs.pix i)) inv b)
  finish := fun r res => { res with packLen := toWord (r.pixels / 8) }

/-- R203: PACK_BW's loop. -/
def packBwProgram (inv : Bool) : PixelProgram := planeProgram bitBw inv

/-- R203 PACK_BW: the black/white plane. -/
def execPackBw (inv : Bool) (s : State) : Host.Outcome State Fault Refusal :=
  acceptPixel (.packBw inv) (checkPack 1) s

/-- R204: PACK_RED's loop. -/
def packRedProgram (inv : Bool) : PixelProgram := planeProgram bitRed inv

/-- R204 PACK_RED: the red plane. -/
def execPackRed (inv : Bool) (s : State) : Host.Outcome State Fault Refusal :=
  acceptPixel (.packRed inv) (checkPack 1) s

/-- R205: PACK_4GRAY's loop, the high plane's byte and then the low plane's at each index. -/
def pack4grayProgram (inv : Bool) : PixelProgram where
  count := fun r => r.pixels / 8
  body := fun _ r b bufs =>
    let p := r.pixels / 8
    (bufs.putPack (r.packDst.toNat + b) (planeByte (fun i => grayHigh (pix bufs.pix i .R)) inv b)).putPack
      (r.packDst.toNat + p + b) (planeByte (fun i => grayLow (pix bufs.pix i .R)) inv b)
  finish := fun r res => { res with packLen := toWord (2 * (r.pixels / 8)) }

/-- R205 PACK_4GRAY: the 4-gray split planes. -/
def execPack4gray (inv : Bool) (s : State) : Host.Outcome State Fault Refusal :=
  acceptPixel (.pack4gray inv) (checkPack 2) s

end Sys2Proof.Machine
end

