-- ==== Sys2Proof/Machine/Palette.lean ====
section
/-! DEFINITION. PAL_DIST and PAL_NEAREST (spec 43_palette.md R182, R183): for each its acceptance, which is the host's step, and
the program that the Engine then runs (45_transport.md R224). -/

namespace Sys2Proof.Machine

/-- R182: RESULT_KEY only. -/
def palDistProgram (metric : Metric) : PixelProgram where
  count := fun _ => 0
  body := fun _ _ _ b => b
  finish := fun r res => { res with resultKey := toWord (distanceKey metric (colourOf r.colorA) (colourOf r.colorB)) }

/-- R182 PAL_DIST: the distance key of COLOR_A and COLOR_B. -/
def execPalDist (metric : Metric) (s : State) : Host.Outcome State Fault Refusal :=
  acceptPixel (.palDist metric) checkNone s

/-- R183: RESULT and RESULT_KEY. -/
def palNearestProgram (metric : Metric) : PixelProgram where
  count := fun _ => 0
  body := fun _ _ _ b => b
  finish := fun r res =>
    let k := nearest r metric (colourOf r.colorA)
    { res with result := BitVec.ofNat 2 k, resultKey := toWord (distanceKey metric (colourOf r.colorA) (r.palEntry k)) }

/-- R183 PAL_NEAREST: the nearest palette entry to COLOR_A. -/
def execPalNearest (metric : Metric) (s : State) : Host.Outcome State Fault Refusal :=
  acceptPixel (.palNearest metric) checkPalette s

end Sys2Proof.Machine
end

