-- ==== Sys2Proof/Machine/Transport.lean ====
section
/-! DEFINITION. FRAME_WR, BULK and CONNECT, and the scheduler they run on (spec 45_transport.md R226, R230 to R233, R240 to
R242, R248): for each its acceptance, which is the host's step, and what the Engine then does (R224). -/

namespace Sys2Proof.Machine

/-- What a session sends: its frames are numbered from 0, `lastFrame` being the number of the last; `frameAt` is frame `c`
with its ack flag; `progress` is whether frame `c` counts as a chunk in BULK_IDX (R241). -/
structure SessionProgram where
  lastFrame : OperandRegs → Nat
  frameAt : OperandRegs → Memory → Nat → TxEntry
  progress : Nat → Bool

/-- Entering a wait state: wait_cnt <- 0 (R236). -/
def State.enterWait (w : Sched) (s : State) : State :=
  { s with engine := { s.engine with sched := w }, tx := { s.tx with waitCnt := 0 } }

/-- What happens when emit of the frame at the cursor returns: for a chunk, BULK_IDX and PROG (R241); then the next frame's
turn, or drain() after the last (R233). -/
def SessionProgram.emitReturn (p : SessionProgram) (s : State) : State :=
  let c := s.engine.chunkCursor
  let s1 := if p.progress c then
      { s with progress := { s.progress with bulkIdx := toWord c }, status := { s.status with prog := true } }
    else s
  let s2 := { s1 with engine := { s1.engine with chunkCursor := c + 1, sched := .run } }
  if c + 1 ≤ p.lastFrame s.latched then s2 else s2.enterWait .wDrain

/-- R232 once there is space: the frame at the cursor goes to TXQ's tail; an acknowledged one then holds the Engine in
W_ACK, an unacknowledged one returns at once. -/
def SessionProgram.append (p : SessionProgram) (s : State) : State :=
  let f := p.frameAt s.latched s.bufs.pack s.engine.chunkCursor
  let s1 := { s with tx := { s.tx with queue := s.tx.queue ++ [f] } }
  if f.ack then { s1 with tx := { s1.tx with ackPending := true } }.enterWait .wAck else p.emitReturn s1

/-- One Engine step of a session (R230, R232, R233). In a wait whose condition does not hold it has none (R224). -/
def SessionProgram.turn (p : SessionProgram) (s : State) : State :=
  match s.engine.sched with
  | .run => if s.txqHasSpace then p.append s else s.enterWait .wSpace
  | .wSpace => if s.txqHasSpace then p.append s else s
  | .wAck => if s.tx.ackPending then s else p.emitReturn s
  | .wDrain => if s.drained then s.complete else s

/-- A session's acceptance (R110): BUSY = 1 and what the command sets "at acceptance"; its frames are the Engine's steps
(R224, R317). -/
def acceptSession (i : Instr) (check : State → Option ErrCode) (start : State → State) (s : State) :
    Host.Outcome State Fault Refusal :=
  acceptCommand i .xport check start s

/-- R226: ELAPSED <- 0 at acceptance. -/
def startFrame (s : State) : State := { s with progress := { s.progress with elapsed := 0 } }

/-- R226: FRAME_WR sends one frame, bytes 0..len-1 of FRAME_DATA after the opcode. -/
def frameProgram (fop : Byte) (len : Nat) (ack : Bool) : SessionProgram where
  lastFrame := fun _ => 0
  frameAt := fun r _ _ => { bytes := frame fop ((List.range len).map r.frameByte), ack := ack }
  progress := fun _ => false

/-- R226 FRAME_WR: write one frame. -/
def execFrameWr (fop : Byte) (len : Nat) (ack : Bool) (s : State) : Host.Outcome State Fault Refusal :=
  acceptSession (.frameWr fop len ack) (checkFrame len) startFrame s

/-- R240: BULK_TOTAL <- T, BULK_IDX <- 0, ELAPSED <- 0 at acceptance. -/
def startBulk (s : State) : State :=
  { s with progress := { bulkIdx := 0, bulkTotal := toWord (chunkCount s.latched.bulkLen.toNat), elapsed := 0 } }

/-- R240: the payload bytes of chunk `c` (1-based). -/
def chunkData (r : OperandRegs) (pack : Memory) (c : Nat) : List Byte :=
  (List.range (chunkLength r.bulkLen.toNat c)).map fun k =>
    memByte .packmem pack (r.bulkSrc.toNat + chunkSize * (c - 1) + k)

/-- R240: frame 0 is SEND_CMD, acknowledged; frame `c` is the SEND_DATA chunk `c`, acknowledged as R242 says. -/
def bulkProgram (fop : Byte) : SessionProgram where
  lastFrame := fun r => chunkCount r.bulkLen.toNat
  frameAt := fun r pack c =>
    if c = 0 then { bytes := frame DeviceOp.sendCmd.code [fop], ack := true }
    else { bytes := frame DeviceOp.sendData.code (chunkData r pack c), ack := chunkAcked r.interleave.toNat c }
  progress := fun c => decide (1 ≤ c)

/-- R240 BULK: send a payload in chunks. -/
def execBulk (fop : Byte) (s : State) : Host.Outcome State Fault Refusal :=
  acceptSession (.bulk fop) checkBulk startBulk s

/-- R248: the whole of CONNECT, which waits for nothing. -/
def connectTurn (s : State) : State :=
  { s with status := { s.status with permFail := false }, retryCnt := 0, connectReq := true }.complete

/-- R248 CONNECT: ask the link to connect. -/
def execConnect (s : State) : Host.Outcome State Fault Refusal :=
  acceptCommand .connect .xport checkNone (fun t => t) s

end Sys2Proof.Machine
end

