-- ==== Sys2Proof/Machine/Dispatch.lean ====
section
/-! DEFINITION. The one dispatcher: what the delivery of each command does, which is its acceptance (spec 30_encoding.md R103,
R110). An accepted command leaves BUSY = 1 (70_reset_and_hazards.md R317), and its rule runs in the Engine's own steps
(45_transport.md R224; Engine.lean). -/

namespace Sys2Proof.Machine

def exec (i : Instr) (s : State) : Host.Outcome State Fault Refusal :=
  match i with
  | .nop => Sys2Proof.Machine.execNop s
  | .luma => Sys2Proof.Machine.execLuma s
  | .dthNone => Sys2Proof.Machine.execDthNone s
  | .dthGray => Sys2Proof.Machine.execDthGray s
  | .dthBayer => Sys2Proof.Machine.execDthBayer s
  | .dthFs => Sys2Proof.Machine.execDthFs s
  | .dthAtk => Sys2Proof.Machine.execDthAtk s
  | .dthPfs => Sys2Proof.Machine.execDthPfs s
  | .dthPatk => Sys2Proof.Machine.execDthPatk s
  | .dth4gray => Sys2Proof.Machine.execDth4gray s
  | .palDist metric => Sys2Proof.Machine.execPalDist metric s
  | .palNearest metric => Sys2Proof.Machine.execPalNearest metric s
  | .packBw inv => Sys2Proof.Machine.execPackBw inv s
  | .packRed inv => Sys2Proof.Machine.execPackRed inv s
  | .pack4gray inv => Sys2Proof.Machine.execPack4gray inv s
  | .frameWr fop len ack => Sys2Proof.Machine.execFrameWr fop len ack s
  | .bulk fop => Sys2Proof.Machine.execBulk fop s
  | .connect => Sys2Proof.Machine.execConnect s

end Sys2Proof.Machine
end

