-- ==== Sys2Proof/Machine/Bus.lean ====
section
/-! DEFINITION. The host's bus accesses (spec 20_memory.md R70 to R79), the delivery of a command word (R28, 30_encoding.md
R110), and the host operations of R114. -/

namespace Sys2Proof.Machine

/-- R110: a command word written to CMD. An illegal word runs nothing; BUSY is checked before it (R272), inside the
meaning for a legal word. -/
def acceptWord (w : Word) (s : State) : Host.Outcome State Fault Refusal :=
  match decode w with
  | .ok i => exec i s
  | .error _ => .next (s.raise (if s.busy then .busy else .illegalCmd) (fieldsOf w).op)

/-- An access's width in bytes (R75). -/
def widthBytes : Width → Nat
  | .w8 => 1
  | .w16 => 2
  | .w32 => 4

/-- A place in the host's space: a CSR's byte offset or a memory's byte offset (R70). -/
inductive Place where
  | csr (off : Nat)
  | mem (sp : Space) (off : Nat)
  deriving DecidableEq, Repr

/-- PACKMEM's base (R70). -/
def packBase : Nat := 0x00800000

/-- PIXMEM's base (R70). -/
def pixBase : Nat := 0x01000000

/-- The CSR region's size (R70). -/
def csrSize : Nat := 0x1000

/-- R70, R75: where a legal access lands; none is a bus error. The whole access lies inside its region, aligned to its
width, and the CSR region takes 32-bit accesses only. -/
def locate (c : Config) (width : Width) (addr : Word) : Option Place :=
  let n := widthBytes width
  let a := addr.toNat
  if a % n ≠ 0 then none
  else if a + n ≤ csrSize then (if width = .w32 then some (.csr a) else none)
  else if packBase ≤ a ∧ a + n ≤ packBase + c.packBytes then some (.mem .packmem (a - packBase))
  else if pixBase ≤ a ∧ a + n ≤ pixBase + 4 * c.pixMax then some (.mem .pixmem (a - pixBase))
  else none

/-- The bytes of a memory as the host reads them, little-endian (R72). -/
def Buffers.readAt (b : Buffers) (sp : Space) (off n : Nat) : Nat :=
  match sp with
  | .pixmem => memRead .pixmem b.pix off n
  | .packmem => memRead .packmem b.pack off n

/-- A host write of `n` bytes, little-endian (R72). -/
def Buffers.writeAt (b : Buffers) (sp : Space) (off n v : Nat) : Buffers :=
  match sp with
  | .pixmem => { b with pix := memWrite b.pix off n v }
  | .packmem => { b with pack := memWrite b.pack off n v }

/-- R79, R279: a memory access refused while a command runs is recorded as HAZARD, tied to no command. -/
def State.hazard (s : State) : State := s.raise .hazard 0xFF

/-- A host read (R75, R76, R78, R79): a bus error is a fault of the host agent; a refused read returns 0. -/
def hostRead (width : Width) (addr : Word) (s : State) : Host.Outcome State Fault Refusal :=
  match locate s.cfg width addr with
  | none => .fault .busError
  | some (.csr off) => .next { s with busData := csrRead off s }
  | some (.mem sp off) =>
    if s.busy then .next { s.hazard with busData := 0 }
    else .next { s with busData := toWord (s.bufs.readAt sp off (widthBytes width)) }

/-- A host write (R28, R75, R76, R79): a write of CMD delivers a command word; a refused write stores nothing. -/
def hostWrite (width : Width) (addr data : Word) (s : State) : Host.Outcome State Fault Refusal :=
  match locate s.cfg width addr with
  | none => .fault .busError
  | some (.csr off) => if off = 0x014 then acceptWord data s else .next (csrWrite off data s)
  | some (.mem sp off) =>
    if s.busy then .next s.hazard
    else .next { s with bufs := s.bufs.writeAt sp off (widthBytes width) data.toNat }

/-- One host bus access. -/
def hostAccess (a : Access) (s : State) : Host.Outcome State Fault Refusal :=
  match a with
  | .read width addr => hostRead width addr s
  | .write width addr data => hostWrite width addr data s

/-! ### Host operations (R114, R115) -/

/-- `SET NAME, v` of R114, by the CSR's offset. -/
def setCsr (off v : Word) : Turn := .host (.write .w32 off v)

/-- The write that delivers a command word (R28). -/
def commandTurn (w : Word) : Turn := setCsr 0x014 w

/-- `CLR` of R114: clears DONE, ERR, NOTIFY and PROG. -/
def clearTurn : Turn := setCsr 0x008 0x0000001E

/-- `SEND_CMD_ONLY fop` of R115. -/
def sendCmdOnly (fop : Byte) : List Turn := [setCsr 0x034 0, commandTurn (encode (.bulk fop))]

end Sys2Proof.Machine
end

