-- ==== Sys2Proof/Machine/Engine.lean ====
section
/-! DEFINITION. The Engine agent's own step (spec 45_transport.md R224): which program the running command has, and one step
of it. -/

namespace Sys2Proof.Machine

/-- The loop of a PIXEL command (R110: NOP, LUMA, DTH_*, PAL_*, PACK_*). -/
def pixelProgramOf : Instr → Option PixelProgram
  | .nop => some nopProgram
  | .luma => some lumaProgram
  | .dthNone => some dthNoneProgram
  | .dthGray => some dthGrayProgram
  | .dthBayer => some dthBayerProgram
  | .dthFs => some dthFsProgram
  | .dthAtk => some dthAtkProgram
  | .dthPfs => some dthPfsProgram
  | .dthPatk => some dthPatkProgram
  | .dth4gray => some dth4grayProgram
  | .palDist metric => some (palDistProgram metric)
  | .palNearest metric => some (palNearestProgram metric)
  | .packBw inv => some (packBwProgram inv)
  | .packRed inv => some (packRedProgram inv)
  | .pack4gray inv => some (pack4grayProgram inv)
  | .frameWr _ _ _ => none
  | .bulk _ => none
  | .connect => none

/-- The frames of a session (R253: FRAME_WR or BULK). -/
def sessionProgramOf : Instr → Option SessionProgram
  | .frameWr fop len ack => some (frameProgram fop len ack)
  | .bulk fop => some (bulkProgram fop)
  | .nop => none
  | .luma => none
  | .dthNone => none
  | .dthGray => none
  | .dthBayer => none
  | .dthFs => none
  | .dthAtk => none
  | .dthPfs => none
  | .dthPatk => none
  | .dth4gray => none
  | .palDist _ => none
  | .palNearest _ => none
  | .packBw _ => none
  | .packRed _ => none
  | .pack4gray _ => none
  | .connect => none

/-- One Engine step (R224): of the running command, if one runs and is not held in a wait; otherwise the Engine has none. -/
def engineTurn (s : State) : State :=
  match s.engine.phase with
  | .idle => s
  | .pixel =>
    match pixelProgramOf s.engine.cur with
    | some p => p.turn s
    | none => s
  | .xport =>
    match s.engine.cur with
    | .connect => connectTurn s
    | i =>
      match sessionProgramOf i with
      | some p => p.turn s
      | none => s

end Sys2Proof.Machine
end

