-- ==== Sys2Proof/Machine/Link.lean ====
section
/-! DEFINITION. The Link agent's events (spec 45_transport.md R234, R245, R246, R250, R252) and the Clock agent's step
(R235, R236, R248). An event that is not enabled is no step of the Link: the turn passes and nothing changes. -/

namespace Sys2Proof.Machine

/-- A Link take or response event: wait_cnt <- 0 (R236). -/
def State.clearWait (s : State) : State := { s with tx := { s.tx with waitCnt := 0 } }

/-- R245's condition of take(ok), with the head of TXQ and the rest. -/
def State.takeable (s : State) : Option (TxEntry × List TxEntry) :=
  if s.link.up && !s.link.owed then
    match s.tx.queue with
    | [] => none
    | f :: rest => some (f, rest)
  else none

/-- R245 take(ok): the head is delivered; an unacknowledged one is a success (R234), an acknowledged one is owed. -/
def linkTakeOk (s : State) : State :=
  match s.takeable with
  | none => s
  | some (f, rest) =>
    let t := { s with tx := { s.tx with queue := rest }, link := { s.link with stream := s.link.stream ++ [f.bytes] } }.clearWait
    if f.ack then { t with link := { t.link with owed := true } } else t.writeSucceeded

/-- R245 take(fail), for an unacknowledged head only: the head is removed, undelivered, and a running session aborts. -/
def linkTakeFail (s : State) : State :=
  match s.takeable with
  | none => s
  | some (f, rest) =>
    if f.ack then s
    else
      let t := { s with tx := { s.tx with queue := rest } }.clearWait
      if t.sessionRunning then t.abortTransport .writeFailed else t

/-- R232: the response that the Engine waits for in W_ACK ends the wait, so emit returns. -/
def State.leaveAckWait (s : State) : State :=
  if s.sessionRunning && s.engine.sched == .wAck then
    match sessionProgramOf s.engine.cur with
    | some p => p.emitReturn s
    | none => s
  else s

/-- R245 resp(ok): a success if a response is pending (R234); otherwise stale (R246). -/
def linkRespOk (s : State) : State :=
  if s.link.owed then
    let t := { s with link := { s.link with owed := false } }.clearWait
    if t.tx.ackPending then { t.writeSucceeded with tx := { t.tx with ackPending := false } }.leaveAckWait else t
  else s

/-- R245 resp(fail): the running session aborts if a response is pending; otherwise stale (R246). -/
def linkRespFail (s : State) : State :=
  if s.link.owed then
    let t := { s with link := { s.link with owed := false } }.clearWait
    if t.tx.ackPending && t.sessionRunning then t.abortTransport .writeFailed else t
  else s

/-- R245 down, with R252 when a session runs. -/
def linkDown (s : State) : State :=
  if s.link.up then
    let t := { s with link := { s.link with up := false, owed := false } }
    if t.sessionRunning then t.abortDisconnected else t
  else s

/-- R245 up. -/
def linkUp (s : State) : State := if s.link.up then s else { s with link := { s.link with up := true } }

/-- Bytes `from`, `from+1`, … `from+n-1` of a message, little-endian (R43). -/
def messageWord (m : List Byte) (start n : Nat) : Nat :=
  ((List.range n).map fun k => (m.getD (start + k) 0).toNat * 2 ^ (8 * k)).sum

/-- R107, R250: a message of eight bytes or more sets PINCFG, DRIVER_ID and NOTIFY; a shorter one changes nothing. -/
def linkNotify (m : List Byte) (s : State) : State :=
  if s.link.up && decide (8 ≤ m.length) then
    { s with
      device :=
        { driverId := m.getD 7 0
          pincfgLo := toWord (messageWord m 0 4)
          pincfgHi := BitVec.ofNat 24 (messageWord m 4 3) }
      status := { s.status with notify := true } }
  else s

/-- R245: one event of the Link. -/
def linkStep (e : LinkEvent) (s : State) : State :=
  match e with
  | .takeOk => linkTakeOk s
  | .takeFail => linkTakeFail s
  | .respOk => linkRespOk s
  | .respFail => linkRespFail s
  | .down => linkDown s
  | .up => linkUp s
  | .notify m => linkNotify m s

/-- R235: ELAPSED counts Clock steps while a session runs, and saturates. -/
def State.countElapsed (s : State) : State :=
  if s.sessionRunning then
    { s with progress := { s.progress with elapsed := toWord (min (s.progress.elapsed.toNat + 1) 0xFFFFFFFF) } }
  else s

/-- R236: the link-wait timer, and TIMEOUT when it reaches a nonzero ACK_TIMEOUT. -/
def State.countWait (s : State) : State :=
  if s.waiting then
    let t := { s with tx := { s.tx with waitCnt := s.tx.waitCnt + 1 } }
    if t.latched.ackTimeout ≠ 0 ∧ t.tx.waitCnt = t.latched.ackTimeout then t.abortTransport .timeout else t
  else s

/-- One Clock step: the connect_req pulse ends (R54, R248, R285), then ELAPSED, then the link-wait timer. -/
def clockTick (s : State) : State := ({ s with connectReq := false }.countElapsed).countWait

end Sys2Proof.Machine
end

