-- ==== Sys2Proof/Machine/Turns.lean ====
section
/-! DEFINITION. The four agents' steps (spec 45_transport.md R224) and the order of simultaneous events (60_exceptions.md
R282). -/

namespace Sys2Proof.Machine

/-- R224: one agent's step. -/
def takeTurn (t : Turn) (s : State) : Host.Outcome State Fault Refusal :=
  match t with
  | .host a => hostAccess a s
  | .engine => .next (engineTurn s)
  | .link e => .next (linkStep e s)
  | .tick => .next (clockTick s)

/-- R282's place of an event within one cycle: soft reset, link down, take or response, notify, tick, host access. The rule
names neither link up nor an Engine step; they stand with link down and last. -/
def turnRank : Turn → Nat
  | .host (.write .w32 addr data) => if addr = 0x004 ∧ data.getLsbD 0 then 0 else 5
  | .host _ => 5
  | .link .down => 1
  | .link .up => 1
  | .link .takeOk => 2
  | .link .takeFail => 2
  | .link .respOk => 2
  | .link .respFail => 2
  | .link (.notify _) => 3
  | .tick => 4
  | .engine => 6

/-- A turn put before the first of a higher rank. -/
def insertTurn (t : Turn) : List Turn → List Turn
  | [] => [t]
  | u :: rest => if turnRank t ≤ turnRank u then t :: u :: rest else u :: insertTurn t rest

/-- R282: the events of one cycle as turns one at a time. -/
def cycleOrder (events : List Turn) : List Turn := events.foldr insertTurn []

end Sys2Proof.Machine
end

