-- ==== Sys2Proof/Machine/Step.lean ====
section
/-! DEFINITION. One step of the machine: the next turn of the agenda, and the Engine's own when no other agent moves (spec
45_transport.md R224). -/

namespace Sys2Proof.Machine

/-- R224, S11: the agent whose turn the agenda names takes one step. With nothing on the agenda only the Engine can move;
held in a wait, or idle, it has no step and the state stays (R10, U6, S12). -/
def step (s : State) : Host.Outcome State Fault Refusal :=
  match s.agenda with
  | [] => .next (engineTurn s)
  | t :: rest => takeTurn t { s with agenda := rest }

/-- The block fetches nothing (R84): a command comes as the host's next access, a write of its word to CMD (R28). -/
def State.withFetchWord (s : State) (nbits w : Nat) : State :=
  { s with agenda := commandTurn (BitVec.ofNat 32 (w % 2 ^ nbits)) :: s.agenda }

/-- The events of one clock cycle, put on the agenda in R282's order. -/
def State.withCycle (s : State) (events : List Turn) : State := { s with agenda := cycleOrder events ++ s.agenda }

end Sys2Proof.Machine
end

