-- ==== Sys2Proof/Safety.lean ====
section
/-! DEFINITION. What counts as a good state of the machine, in the terms the statements use: each clause is a promise the
spec makes about every reachable state, but for the memories' canonical form, which is the model's (log entry 1). -/

namespace Sys2Proof.Machine

/-- Both memories are in canonical form (the model's own, log entry 1). -/
abbrev State.memoryCanonical (s : State) : Prop := Memory.wf s.bufs.pix ∧ Memory.wf s.bufs.pack

/-- Both memories hold bytes of their own regions only (R50, R51, R70, R81). -/
abbrev State.memoryInRange (s : State) : Prop :=
  (∀ c ∈ s.bufs.pix, c.1 < 4 * s.cfg.pixMax) ∧ (∀ c ∈ s.bufs.pack, c.1 < s.cfg.packBytes)

/-- R112's operand checks of a command, over the operands it latched. -/
def latchedChecks (c : Config) (r : OperandRegs) : Instr → Bool
  | .nop => true
  | .luma => geometryOk c r
  | .dthNone => geometryOk c r
  | .dthGray => geometryOk c r && decide (2 ≤ r.thresh.toNat)
  | .dthBayer => geometryOk c r
  | .dthFs => geometryOk c r
  | .dthAtk => geometryOk c r
  | .dthPfs => geometryOk c r && paletteOk r
  | .dthPatk => geometryOk c r && paletteOk r
  | .dth4gray => geometryOk c r
  | .palDist _ => true
  | .palNearest _ => paletteOk r
  | .packBw _ => geometryOk c r && decide (r.packDst.toNat + r.pixels / 8 ≤ c.packBytes)
  | .packRed _ => geometryOk c r && decide (r.packDst.toNat + r.pixels / 8 ≤ c.packBytes)
  | .pack4gray _ => geometryOk c r && decide (r.packDst.toNat + 2 * (r.pixels / 8) ≤ c.packBytes)
  | .frameWr _ len _ => decide (len ≤ chunkSize)
  | .bulk _ => decide (r.bulkSrc.toNat + r.bulkLen.toNat ≤ c.packBytes)
  | .connect => true

/-- R110: a command that runs is of its phase's kind and passed its checks. -/
def State.runningLegal (s : State) : Bool :=
  match s.engine.phase with
  | .idle => true
  | .pixel => (pixelProgramOf s.engine.cur).isSome && latchedChecks s.cfg s.latched s.engine.cur
  | .xport => !(pixelProgramOf s.engine.cur).isSome && latchedChecks s.cfg s.latched s.engine.cur

/-- R38, R53, R105, R220: TXQ holds at most TXQ_DEPTH frames, each of 1 to 20 bytes. -/
abbrev State.queueBounded (s : State) : Prop :=
  s.tx.queue.length ≤ s.cfg.txqDepth ∧ ∀ f ∈ s.tx.queue, 1 ≤ f.bytes.length ∧ f.bytes.length ≤ frameMax

/-- R233, R246: with no session running, TXQ is empty and no response is pending. -/
abbrev State.quietWhenNoSession (s : State) : Prop :=
  s.sessionRunning = false → s.tx.queue = [] ∧ s.tx.ackPending = false

/-- R232: a response is pending exactly while the Engine waits for it. That the wait is over in the very step that brings the
awaited response is log entry 11. -/
abbrev State.ackMatchesWait (s : State) : Prop :=
  s.sessionRunning = true → (s.tx.ackPending = true ↔ s.engine.sched = .wAck)

/-- R37, R285: at most MAX_RETRY attempts are counted, and the terminal state is reached only with the budget spent. -/
abbrev State.retryBudget (s : State) : Prop :=
  s.retryCnt.toNat ≤ maxRetry ∧ (s.status.permFail = true → s.retryCnt.toNat = maxRetry ∧ s.sessionRunning = false)

/-- R23, R26: STATUS.ERR is set exactly when ERR holds a code, and ERR is wholly 0 otherwise. -/
abbrev State.errorRecorded (s : State) : Prop :=
  (s.status.err = true ↔ s.error.code ≠ .noError) ∧ (s.error.code = .noError → s.error.op = 0)

/-- A state that a run from reset can be in, as far as these promises say. -/
structure State.Good (s : State) : Prop where
  configLegal : s.cfg.legal
  canonical : s.memoryCanonical
  inRange : s.memoryInRange
  running : s.runningLegal = true
  bounded : s.queueBounded
  quiet : s.quietWhenNoSession
  ackWait : s.ackMatchesWait
  retry : s.retryBudget
  recorded : s.errorRecorded

/-! ### Terms the statements use -/

/-- R112's "geometry ok", over the CSRs as they stand. -/
abbrev State.geometryHolds (s : State) : Prop :=
  1 ≤ s.regs.imgW.toNat ∧ 1 ≤ s.regs.imgH.toNat ∧ s.regs.imgW.toNat * s.regs.imgH.toNat ≤ s.cfg.pixMax

/-- STATUS.LINK_UP = 1 and STATUS.PERM_FAIL = 0 (R112, R275). -/
abbrev State.linkUsable (s : State) : Prop := s.link.up = true ∧ s.status.permFail = false

/-- The number of pixels of the image the CSRs describe. -/
abbrev State.imageSize (s : State) : Nat := s.regs.imgW.toNat * s.regs.imgH.toNat

/-- R112's table, row by row: the error of the first check that fails, if one does. -/
def firstFailedCheck (s : State) : Instr → Option ErrCode
  | .nop => none
  | .palDist _ => none
  | .connect => none
  | .palNearest _ => if 1 ≤ s.regs.palCnt.toNat ∧ s.regs.palCnt.toNat ≤ 4 then none else some .config
  | .luma => if s.geometryHolds then none else some .config
  | .dthNone => if s.geometryHolds then none else some .config
  | .dthBayer => if s.geometryHolds then none else some .config
  | .dthFs => if s.geometryHolds then none else some .config
  | .dthAtk => if s.geometryHolds then none else some .config
  | .dth4gray => if s.geometryHolds then none else some .config
  | .dthGray => if s.geometryHolds ∧ 2 ≤ s.regs.thresh.toNat then none else some .config
  | .dthPfs =>
    if s.geometryHolds ∧ 1 ≤ s.regs.palCnt.toNat ∧ s.regs.palCnt.toNat ≤ 4 then none else some .config
  | .dthPatk =>
    if s.geometryHolds ∧ 1 ≤ s.regs.palCnt.toNat ∧ s.regs.palCnt.toNat ≤ 4 then none else some .config
  | .packBw _ =>
    if ¬s.geometryHolds then some .config
    else if s.imageSize % 8 ≠ 0 then some .packSize
    else if s.regs.packDst.toNat + s.imageSize / 8 ≤ s.cfg.packBytes then none else some .config
  | .packRed _ =>
    if ¬s.geometryHolds then some .config
    else if s.imageSize % 8 ≠ 0 then some .packSize
    else if s.regs.packDst.toNat + s.imageSize / 8 ≤ s.cfg.packBytes then none else some .config
  | .pack4gray _ =>
    if ¬s.geometryHolds then some .config
    else if s.imageSize % 8 ≠ 0 then some .packSize
    else if s.regs.packDst.toNat + 2 * (s.imageSize / 8) ≤ s.cfg.packBytes then none else some .config
  | .frameWr _ len _ =>
    if 19 < len then some .frameTooLarge else if s.linkUsable then none else some .transportUnavailable
  | .bulk _ =>
    if s.cfg.packBytes < s.regs.bulkSrc.toNat + s.regs.bulkLen.toNat then some .config
    else if s.linkUsable then none else some .transportUnavailable

/-- `s` with an error recorded and nothing else changed (R280). -/
def State.recorded (s : State) (code : ErrCode) (op : Byte) : State :=
  { s with error := { code := code, op := op }, status := { s.status with err := true } }

/-- `s` after PIXEL command `i` was accepted and ran to its end: the memories are `b`, the result CSRs `res`, DONE is set,
and of the rest only the latched copies and the sequencing state, which nothing reads while idle (R54), may differ. -/
def State.doneAfter (s : State) (i : Instr) (count : Nat) (b : Buffers) (res : Results) : State :=
  { s with
    latched := s.regs
    engine := { phase := .idle, cur := i, pixCursor := count, chunkCursor := 0, sched := .run }
    bufs := b
    results := res
    status := { s.status with done := true } }

/-- `s` after command `i` was accepted and no further: latched and running in phase `ph` (R110 steps 3 and 5). -/
def State.begun (s : State) (i : Instr) (ph : Phase) : State :=
  { s with
    latched := s.regs
    engine := { phase := ph, cur := i, pixCursor := 0, chunkCursor := 0, sched := .run } }

/-- `s` after command `i` was accepted (R110): begun, with ELAPSED 0 for a session and BULK's progress registers set "at
acceptance" (R226, R240). -/
def State.started (s : State) (i : Instr) : State :=
  match i with
  | .frameWr _ _ _ => { s.begun i .xport with progress := { s.progress with elapsed := 0 } }
  | .bulk _ => { s.begun i .xport with
      progress := { bulkIdx := 0, bulkTotal := BitVec.ofNat 32 ((s.regs.bulkLen.toNat + 18) / 19), elapsed := 0 } }
  | .connect => s.begun i .xport
  | _ => s.begun i .pixel

/-- `s` after the Engine steps that take a just accepted PIXEL command, whose loop has `n` indices, to its end: one step at
once, or one for each index and the last step by turns (R224, S10). -/
def State.afterEngine (s : State) (n : Nat) : State :=
  engineTurn^[match s.pace with
    | .atOnce => 1
    | .byTurns => n + 1] s

/-- Every byte of PIXMEM after a pass over `n` pixels that makes pixel `i` of gray value `v` the tone `tone i v` in R, G and
B: alpha and every byte beyond the image stay (R140, R50). -/
def grayImage (before after : Memory) (n : Nat) (tone : Nat → Nat → Nat) : Prop :=
  ∀ a, memByte .pixmem after a =
    if a < 4 * n ∧ a % 4 ≠ 3 then BitVec.ofNat 8 (tone (a / 4) (pix before (a / 4) .R).toNat)
    else memByte .pixmem before a

/-- The total weight with which pixel `i`'s error reaches pixel `j` (R144, R145). -/
def weightTo (r : OperandRegs) (nbs : List Neighbour) (i j : Nat) : Int :=
  (nbs.map fun nb => if target r i nb = some j then nb.weight else 0).sum

/-- R40: the colour of an RGBA word, R in bits 7..0, G in 15..8, B in 23..16. -/
def rgbOfWord (w : Word) : Rgb where
  r := w.extractLsb' 0 8
  g := w.extractLsb' 8 8
  b := w.extractLsb' 16 8

/-- R40: the colour of palette entry `k`, a word of PAL0 to PAL3. -/
def OperandRegs.paletteColour (r : OperandRegs) (k : Nat) : Rgb := rgbOfWord ([r.pal0, r.pal1, r.pal2, r.pal3].getD k 0)

/-- R181: KeyE and KeyP in exact integers. -/
def exactKey (metric : Metric) (a b : Rgb) : Int :=
  let dr : Int := (a.r.toNat : Int) - b.r.toNat
  let dg : Int := (a.g.toNat : Int) - b.g.toNat
  let db : Int := (a.b.toNat : Int) - b.b.toNat
  let rs : Int := (a.r.toNat : Int) + b.r.toNat
  match metric with
  | .euclid => dr * dr + dg * dg + db * db
  | .percept => (1024 + rs) * dr * dr + 2048 * dg * dg + (1534 - rs) * db * db

/-- R44: byte `k` of the FRAME_DATA registers is FRAME_DATA(k div 4)[8(k mod 4)+7 : 8(k mod 4)]. -/
def OperandRegs.frameDataByte (r : OperandRegs) (k : Nat) : Byte :=
  ([r.frameData0, r.frameData1, r.frameData2, r.frameData3, r.frameData4].getD (k / 4) 0).extractLsb' (8 * (k % 4)) 8

/-- R220, R226: FRAME_WR's entry of TXQ. -/
def OperandRegs.framedData (r : OperandRegs) (fop : Byte) (len : Nat) (ack : Bool) : TxEntry where
  bytes := fop :: (List.range len).map r.frameDataByte
  ack := ack

/-- R240: BULK's SEND_CMD entry of TXQ. -/
def sendCmdEntry (fop : Byte) : TxEntry where
  bytes := [0x03, fop]
  ack := true

/-- R70: the byte at bus address `a` of the two memories, which meet at 0x01000000. -/
def hostByte (b : Buffers) (a : Nat) : Byte :=
  if a < 0x01000000 then memByte .packmem b.pack (a - 0x00800000) else memByte .pixmem b.pix (a - 0x01000000)

/-- R270's table: the value of each error code. -/
def codeValue : ErrCode → Nat
  | .noError => 0
  | .illegalCmd => 1
  | .busy => 2
  | .config => 3
  | .transportUnavailable => 4
  | .frameTooLarge => 5
  | .writeFailed => 6
  | .disconnected => 7
  | .timeout => 8
  | .packSize => 9
  | .hazard => 10

/-- The geometry whose error diffusion never targets the pixel itself (R144, R153): CLIP, or at least two columns. -/
abbrev OperandRegs.noSelfTarget (r : OperandRegs) : Prop := r.edge = true ∨ 2 ≤ r.imgW.toNat

/-- Bit `7 - k` of byte `b` of a plane is the plane test of pixel `8b + k`, inverted if `inv` (R201, R206). -/
def planeHolds (v : Byte) (bit : Nat → Bool) (inv : Bool) (b : Nat) : Prop :=
  ∀ k, k < 8 → v.getLsbD (7 - k) = (bit (8 * b + k) ^^ inv)

/-- The frame that BULK sends as chunk `c` (R240, R242). -/
def bulkChunk (r : OperandRegs) (pack : Memory) (c : Nat) : TxEntry where
  bytes := 0x04 :: (List.range (min 19 (r.bulkLen.toNat - 19 * (c - 1)))).map fun k =>
    memByte .packmem pack (r.bulkSrc.toNat + 19 * (c - 1) + k)
  ack := decide (c % (r.interleave.toNat + 1) = 0)

/-- The cooperative schedule of `n` acknowledged frames: each is taken, answered ok, and the Engine steps. -/
def cooperativeTurns : Nat → List Turn
  | 0 => []
  | n + 1 => .link .takeOk :: .link .respOk :: .engine :: cooperativeTurns n

/-- R75's legal accesses, region by region. -/
def accessLegal (c : Config) (width : Width) (addr : Nat) : Prop :=
  let n := widthBytes width
  addr % n = 0 ∧
    (width = .w32 ∧ addr + 4 ≤ 0x1000 ∨
     0x00800000 ≤ addr ∧ addr + n ≤ 0x00800000 + c.packBytes ∨
     0x01000000 ≤ addr ∧ addr + n ≤ 0x01000000 + 4 * c.pixMax)

/-- The read-write CSRs of R20's table that hold one field from bit 0, with the field's width. -/
def plainRwCsrs : List (Nat × Nat) :=
  [(0x018, 16), (0x01C, 16), (0x020, 16), (0x024, 16), (0x028, 32), (0x030, 32), (0x034, 32), (0x044, 32), (0x050, 3),
   (0x054, 32), (0x058, 32), (0x05C, 32), (0x060, 32), (0x064, 32), (0x068, 32), (0x080, 32), (0x084, 32), (0x088, 32),
   (0x08C, 32), (0x090, 32)]

/-- R20's reset column: what a read of each CSR returns after reset with the link at level `level`. -/
def csrResetValue (off : Nat) (level : Bool) : Word :=
  if off = 0x000 then 0x44490007
  else if off = 0x008 then (if level then 0x000000A0 else 0x00000080)
  else if off = 0x020 then 128
  else if off = 0x050 then 3
  else if off = 0x054 then 0xFF000000
  else if off = 0x058 then 0xFFFFFFFF
  else if off = 0x05C then 0xFF0000FF
  else 0

end Sys2Proof.Machine
end

