-- ==== Sys2Proof/Certificates/Slice0/Obligations.lean ====
section
/-! DEFINITION. The statements about this model, for the provers. Each docstring names the rule of the spec it formalises;
one that rests on a choice of the model names the entry of notes/assumptions. -/

open Sys2Proof Sys2Proof.Machine

/-! ### Encoding and the step -/

/-- R103, R100: words written out from the field positions decode to the commands they stand for. -/
def Obligations.WrittenWordsDecode : Prop :=
  decode 0x00000000 = .ok .nop ∧ decode 0x00000010 = .ok .luma ∧ decode 0x00000024 = .ok .dthAtk ∧
  decode 0x04000031 = .ok (.palNearest .percept) ∧ decode 0x02000041 = .ok (.packRed true) ∧
  decode 0x01000550 = .ok (.frameWr 0x05 0 true) ∧ decode 0x00133F50 = .ok (.frameWr 0x3F 19 false) ∧
  decode 0x00002451 = .ok (.bulk 0x24) ∧ decode 0x00000052 = .ok .connect ∧
  decode 0x00000120 = .error (.disallowedBits 0x20) ∧ decode 0x00000011 = .error (.unassignedOpcode 0x11)

/-- R100 to R103: no bit of an encoding is dropped. -/
def Obligations.DecodeOfEncodeIsTheInstruction : Prop :=
  ∀ i : Instr, i.wellFormed = true → decode (encode i) = .ok i

/-- R102, R104: each legal word has exactly one instruction, and that instruction one word. -/
def Obligations.EncodeOfDecodeIsTheWord : Prop :=
  ∀ (w : Word) (i : Instr), decode w = .ok i → encode i = w ∧ i.wellFormed = true

/-- R104: a word is one row of the opcode table or illegal, and rows never overlap. -/
def Obligations.DecoderAcceptsTheTableRows : Prop :=
  ∀ w : Word, ((∃ i, decode w = .ok i) ↔ ∃ row ∈ opcodeTable, row.accepts w = true) ∧
    (opcodeTable.filter fun row => row.accepts w).length ≤ 1

/-- R28, R110, R84: a write of a legal word to CMD is the command's meaning, at the state without that turn; and the word
that `withFetchWord` places for an instruction runs that instruction. R224: a turn of the Engine, the Clock or the Link is that
agent's step; the list of turns, and that the Engine moves with no turn due, are the model's choice (log entry 5). -/
def Obligations.StepRunsTheDecodedCommand : Prop :=
  (∀ (s : State) (w : Word) (rest : List Turn) (i : Instr),
    s.agenda = .host (.write .w32 0x014 w) :: rest → decode w = .ok i → step s = exec i { s with agenda := rest }) ∧
  (∀ (s : State) (i : Instr), i.wellFormed = true → step (s.withFetchWord 32 (encode i).toNat) = exec i s) ∧
  ∀ (s : State) (rest : List Turn),
    (s.agenda = [] → step s = .next (engineTurn s)) ∧
    (s.agenda = .engine :: rest → step s = .next (engineTurn { s with agenda := rest })) ∧
    (s.agenda = .tick :: rest → step s = .next (clockTick { s with agenda := rest })) ∧
    ∀ e, s.agenda = .link e :: rest → step s = .next (linkStep e { s with agenda := rest })

/-- R272: a word that is no row of the table records ILLEGAL_CMD with its low byte and changes nothing else; while a
command runs it records BUSY. -/
def Obligations.IllegalWordRecordsIllegalCmd : Prop :=
  ∀ (s : State) (w : Word) (rest : List Turn),
    s.agenda = .host (.write .w32 0x014 w) :: rest → (∀ row ∈ opcodeTable, row.accepts w = false) →
    step s = .next (State.recorded { s with agenda := rest } (if s.busy then .busy else .illegalCmd) (w.extractLsb' 0 8))

/-- R273: any word written to CMD while a command runs records BUSY; the running command continues as if the write had not
happened. -/
def Obligations.CommandWhileBusyIsRejected : Prop :=
  ∀ (s : State) (w : Word) (rest : List Turn),
    s.agenda = .host (.write .w32 0x014 w) :: rest → s.busy = true →
    step s = .next (State.recorded { s with agenda := rest } .busy (w.extractLsb' 0 8))

/-- R112: the first operand check that fails is the error recorded, and the rejection changes nothing but ERR and
STATUS.ERR. -/
def Obligations.FirstFailedCheckIsRecorded : Prop :=
  ∀ (i : Instr) (s : State) (code : ErrCode), s.busy = false → firstFailedCheck s i = some code →
    exec i s = .next (s.recorded code i.opcode)

/-! ### What each PIXEL command leaves

The host's step that delivers an accepted command leaves it running, BUSY = 1 (R110, R317); the Engine's own steps then take it
to its end, one or several as the pace says (R224; log entry 6). Each statement says both, for either pace. -/

/-- R131: NOP completes and does nothing else. -/
def Obligations.NopCompletes : Prop :=
  ∀ s : State, s.busy = false → exec .nop s = .next (s.started .nop) ∧
    (s.started .nop).afterEngine 0 = s.doneAfter .nop 0 s.bufs s.results

/-- R130, R132: every pixel of the image takes its luminance; alpha, the bytes past the image and PACKMEM stay. -/
def Obligations.LumaMakesTheImageGray : Prop :=
  ∀ s : State, s.busy = false → s.geometryHolds →
    exec .luma s = .next (s.started .luma) ∧
    ∃ m, (s.started .luma).afterEngine s.imageSize = s.doneAfter .luma s.imageSize { s.bufs with pix := m } s.results ∧
      ∀ a, memByte .pixmem m a =
        if a < 4 * s.imageSize ∧ a % 4 ≠ 3 then
          BitVec.ofNat 8 ((299 * (pix s.bufs.pix (a / 4) .R).toNat + 587 * (pix s.bufs.pix (a / 4) .G).toNat +
            114 * (pix s.bufs.pix (a / 4) .B).toNat) / 1000)
        else memByte .pixmem s.bufs.pix a

/-- R146: DTH_NONE cuts every value at THRESH. -/
def Obligations.ThresholdDitherCuts : Prop :=
  ∀ s : State, s.busy = false → s.geometryHolds →
    exec .dthNone s = .next (s.started .dthNone) ∧
    ∃ m, (s.started .dthNone).afterEngine s.imageSize = s.doneAfter .dthNone s.imageSize { s.bufs with pix := m } s.results ∧
      grayImage s.bufs.pix m s.imageSize fun _ v => if v < s.regs.thresh.toNat then 0 else 255

/-- R147, R149: DTH_GRAY rounds every value to one of THRESH levels. -/
def Obligations.GrayDitherRoundsToLevels : Prop :=
  ∀ s : State, s.busy = false → s.geometryHolds → 2 ≤ s.regs.thresh.toNat →
    exec .dthGray s = .next (s.started .dthGray) ∧
    ∃ m, (s.started .dthGray).afterEngine s.imageSize = s.doneAfter .dthGray s.imageSize { s.bufs with pix := m } s.results ∧
      grayImage s.bufs.pix m s.imageSize fun _ v =>
        rneDiv ((2 * v * (s.regs.thresh.toNat - 1) + 255) / 510 * 255) (s.regs.thresh.toNat - 1)

/-- R148: DTH_4GRAY's cuts stand at 43, 128 and 213. -/
def Obligations.FourGrayDitherCuts : Prop :=
  ∀ s : State, s.busy = false → s.geometryHolds →
    exec .dth4gray s = .next (s.started .dth4gray) ∧
    ∃ m, (s.started .dth4gray).afterEngine s.imageSize = s.doneAfter .dth4gray s.imageSize { s.bufs with pix := m } s.results ∧
      grayImage s.bufs.pix m s.imageSize fun _ v => if v < 43 then 0 else if v < 128 then 85 else if v < 213 then 170 else 255

/-- R151: DTH_BAYER tests `v + t < 2*THRESH`, `t` being the entry at row `x mod 4`, column `y mod 4`. -/
def Obligations.BayerDitherTestsTheMatrix : Prop :=
  ∀ s : State, s.busy = false → s.geometryHolds →
    exec .dthBayer s = .next (s.started .dthBayer) ∧
    ∃ m, (s.started .dthBayer).afterEngine s.imageSize = s.doneAfter .dthBayer s.imageSize { s.bufs with pix := m } s.results ∧
      grayImage s.bufs.pix m s.imageSize fun i v =>
        if v + s.cfg.bayer.getD (4 * (i % s.regs.imgW.toNat % 4) + i / s.regs.imgW.toNat % 4) 0 < 2 * s.regs.thresh.toNat
        then 0 else 255

/-- R149: Q(v, n) is a byte, is within half a step of the k-th level, k being the level index nearest to v; a level that
lies exactly between two integers goes to the even one; and 256 levels are the identity. -/
def Obligations.LevelIsNearest : Prop :=
  (∀ v n : Nat, v ≤ 255 → 1 ≤ n →
    level v n ≤ 255 ∧ levelIndex v n ≤ n ∧
    (2 * |(level v n : Int) * n - (levelIndex v n : Int) * 255| ≤ n) ∧
    (2 * |(level v n : Int) * n - (levelIndex v n : Int) * 255| = n → level v n % 2 = 0) ∧
    (2 * |(levelIndex v n : Int) * 255 - (v : Int) * n| < 255)) ∧
  ∀ v : Nat, v ≤ 255 → level v 255 = v

/-- R153, R154, R141: the gray diffusion commands run R152's step over the pixels in increasing order, DTH_FS with the cut
129, rate 16 and NB_FS, DTH_ATK with the cut THRESH, rate 8 and NB_ATK. -/
def Obligations.GrayDiffusionRunsInOrder : Prop :=
  ∀ s : State, s.busy = false → s.geometryHolds →
    exec .dthFs s = .next (s.started .dthFs) ∧
    (s.started .dthFs).afterEngine s.imageSize = s.doneAfter .dthFs s.imageSize
      { s.bufs with pix := (List.range s.imageSize).foldl (grayEd s.regs 129 16 nbFs) s.bufs.pix } s.results ∧
    exec .dthAtk s = .next (s.started .dthAtk) ∧
    (s.started .dthAtk).afterEngine s.imageSize = s.doneAfter .dthAtk s.imageSize
      { s.bufs with pix := (List.range s.imageSize).foldl (grayEd s.regs s.regs.thresh.toNat 8 nbAtk) s.bufs.pix } s.results

/-- R152, R145: one gray diffusion step. Pixel `i` becomes 0 or 255; every R channel of the image then receives the error
times the total weight that reaches it, saturated; pixel `i`'s G and B follow its R; every other byte stays. R142, R158: from
a pixel away from the edges the weights reach the pixels that the lists name, and sum to 16 and to 6. -/
def Obligations.GrayDiffusionStepValues : Prop :=
  (∀ (r : OperandRegs) (cut : Nat) (rate : Int) (nbs : List Neighbour) (m : Memory) (i : Nat),
    nbs = nbFs ∨ nbs = nbAtk → i < r.pixels →
    let old := (pix m i .R).toNat
    let new : Int := if old < cut then 0 else 255
    let e := Int.fdiv (old - new) rate
    let m' := grayEd r cut rate nbs m i
    (∀ j, pix m' j .R = sat8 ((if j = i then new else (pix m j .R).toNat) + e * weightTo r nbs i j)) ∧
    pix m' i .G = pix m' i .R ∧ pix m' i .B = pix m' i .R ∧
    (∀ j c, j ≠ i → c ≠ .R → pix m' j c = pix m j c) ∧ pix m' i .A = pix m i .A) ∧
  ∀ (r : OperandRegs) (x y : Nat), 1 ≤ x → x + 2 < r.imgW.toNat → y + 2 < r.imgH.toNat →
    let w := r.imgW.toNat
    let i := y * w + x
    (∀ j, weightTo r nbFs i j =
      if j = i + 1 then 7 else if j = i + w - 1 then 3 else if j = i + w then 5 else if j = i + w + 1 then 1 else 0) ∧
    (∀ j, weightTo r nbAtk i j =
      if j = i + 1 ∨ j = i + 2 ∨ j = i + w - 1 ∨ j = i + w ∨ j = i + w + 1 ∨ j = i + 2 * w then 1 else 0) ∧
    ((List.range r.pixels).map (weightTo r nbFs i)).sum = 16 ∧ ((List.range r.pixels).map (weightTo r nbAtk i)).sum = 6

/-- R156, R157, R141: the palette diffusion commands run R155's step over the pixels in increasing order. -/
def Obligations.PaletteDiffusionRunsInOrder : Prop :=
  ∀ s : State, s.busy = false → s.geometryHolds → 1 ≤ s.regs.palCnt.toNat → s.regs.palCnt.toNat ≤ 4 →
    exec .dthPfs s = .next (s.started .dthPfs) ∧
    (s.started .dthPfs).afterEngine s.imageSize = s.doneAfter .dthPfs s.imageSize
      { s.bufs with pix := (List.range s.imageSize).foldl (palEd s.regs 16 nbFs) s.bufs.pix } s.results ∧
    exec .dthPatk s = .next (s.started .dthPatk) ∧
    (s.started .dthPatk).afterEngine s.imageSize = s.doneAfter .dthPatk s.imageSize
      { s.bufs with pix := (List.range s.imageSize).foldl (palEd s.regs 8 nbAtk) s.bufs.pix } s.results

/-- R155, R145: one palette diffusion step, channel by channel; alpha is neither read nor written. -/
def Obligations.PaletteDiffusionStepValues : Prop :=
  ∀ (r : OperandRegs) (rate : Int) (nbs : List Neighbour) (m : Memory) (i : Nat),
    nbs = nbFs ∨ nbs = nbAtk → i < r.pixels →
    let k := nearest r .euclid (pixRgb m i)
    let p := r.palEntry k
    let m' := palEd r rate nbs m i
    ∀ j,
      pix m' j .R = sat8 ((if j = i then (p.r.toNat : Int) else (pix m j .R).toNat) +
        Int.fdiv ((pix m i .R).toNat - p.r.toNat) rate * weightTo r nbs i j) ∧
      pix m' j .G = sat8 ((if j = i then (p.g.toNat : Int) else (pix m j .G).toNat) +
        Int.fdiv ((pix m i .G).toNat - p.g.toNat) rate * weightTo r nbs i j) ∧
      pix m' j .B = sat8 ((if j = i then (p.b.toNat : Int) else (pix m j .B).toNat) +
        Int.fdiv ((pix m i .B).toNat - p.b.toNat) rate * weightTo r nbs i j) ∧
      pix m' j .A = pix m j .A

/-- R144, R81: a target is a pixel of the image; under CLIP it stands at the neighbour's own column and row, under WRAP at
the neighbour's flat offset, and a neighbour that has none lies outside. -/
def Obligations.DiffusionTargetsStayInTheImage : Prop :=
  ∀ (r : OperandRegs) (i : Nat) (nb : Neighbour), nb ∈ nbFs ∨ nb ∈ nbAtk → i < r.pixels →
    (∀ j, target r i nb = some j → j < r.pixels) ∧
    (r.edge = false → ∀ j, target r i nb = some j ↔
      ((j : Int) = i + nb.dy * r.imgW.toNat + nb.dx ∧ j < r.pixels)) ∧
    (r.edge = true → ∀ j, target r i nb = some j ↔
      (j < r.pixels ∧ ((j % r.imgW.toNat : Nat) : Int) = (i % r.imgW.toNat : Nat) + nb.dx ∧
        j / r.imgW.toNat = i / r.imgW.toNat + nb.dy))

/-- R152, R159: after a gray diffusion command every pixel has R = G = B and keeps its alpha; unless a pixel can be its own
target (W = 1 under WRAP), every tone is 0 or 255. -/
def Obligations.GrayDiffusionLeavesBlackAndWhite : Prop :=
  ∀ (i : Instr) (s t : State), i = .dthFs ∨ i = .dthAtk → s.busy = false → s.geometryHolds → exec i s = .next t →
    let u := t.afterEngine s.imageSize
    u.busy = false ∧ u.status.done = true ∧ ∀ j, j < s.imageSize →
      pix u.bufs.pix j .G = pix u.bufs.pix j .R ∧ pix u.bufs.pix j .B = pix u.bufs.pix j .R ∧
      pix u.bufs.pix j .A = pix s.bufs.pix j .A ∧
      (s.regs.noSelfTarget → pix u.bufs.pix j .R = 0 ∨ pix u.bufs.pix j .R = 255)

/-- R159 for the palette commands, where a pixel cannot be its own target (log entry 8): every pixel is a palette colour of
index below PAL_CNT. -/
def Obligations.PaletteDiffusionLeavesPaletteColours : Prop :=
  ∀ (i : Instr) (s t : State), i = .dthPfs ∨ i = .dthPatk → s.busy = false → s.geometryHolds →
    1 ≤ s.regs.palCnt.toNat → s.regs.palCnt.toNat ≤ 4 → s.regs.noSelfTarget → exec i s = .next t →
    let u := t.afterEngine s.imageSize
    u.busy = false ∧ u.status.done = true ∧
      ∀ j, j < s.imageSize → ∃ k, k < s.regs.palCnt.toNat ∧ pixRgb u.bufs.pix j = s.regs.paletteColour k

/-- R182, R181, R40: PAL_DIST leaves the exact key of the colours in COLOR_A and COLOR_B in RESULT_KEY, and RESULT as it
was. -/
def Obligations.PalDistLeavesTheKey : Prop :=
  ∀ (s : State) (metric : Metric), s.busy = false →
    exec (.palDist metric) s = .next (s.started (.palDist metric)) ∧
    ∃ key : Word, (s.started (.palDist metric)).afterEngine 0 =
        s.doneAfter (.palDist metric) 0 s.bufs { s.results with resultKey := key } ∧
      (key.toNat : Int) = exactKey metric (rgbOfWord s.regs.colorA) (rgbOfWord s.regs.colorB)

/-- R184, R183, R40: PAL_NEAREST returns the lowest index that minimises the key of COLOR_A, and its key. -/
def Obligations.PalNearestIsFirstLeast : Prop :=
  ∀ (s : State) (metric : Metric), s.busy = false → 1 ≤ s.regs.palCnt.toNat → s.regs.palCnt.toNat ≤ 4 →
    let key := fun j => exactKey metric (rgbOfWord s.regs.colorA) (s.regs.paletteColour j)
    exec (.palNearest metric) s = .next (s.started (.palNearest metric)) ∧
    ∃ (k : Nat) (least : Word), k < s.regs.palCnt.toNat ∧
      (s.started (.palNearest metric)).afterEngine 0 = s.doneAfter (.palNearest metric) 0 s.bufs
        { s.results with result := BitVec.ofNat 2 k, resultKey := least } ∧
      (least.toNat : Int) = key k ∧ (∀ j, j < s.regs.palCnt.toNat → key k ≤ key j) ∧ ∀ j, j < k → key k < key j

/-- R203, R204, R201, R206: PACK_BW and PACK_RED write their plane's bytes at PACK_DST, and no other byte. -/
def Obligations.PlanePacksWriteTheirPlane : Prop :=
  ∀ (s : State) (inv : Bool), s.busy = false → s.geometryHolds → s.imageSize % 8 = 0 →
    s.regs.packDst.toNat + s.imageSize / 8 ≤ s.cfg.packBytes →
    ∀ p : Instr × (Nat → Bool),
      p = (.packBw inv, fun i => pix s.bufs.pix i .R != 0 && pix s.bufs.pix i .G != 0 && pix s.bufs.pix i .B != 0) ∨
      p = (.packRed inv, fun i => !(pix s.bufs.pix i .R != 0 && pix s.bufs.pix i .G == 0 && pix s.bufs.pix i .B == 0)) →
    exec p.1 s = .next (s.started p.1) ∧
    ∃ m, (s.started p.1).afterEngine (s.imageSize / 8) = s.doneAfter p.1 (s.imageSize / 8) { s.bufs with pack := m }
        { s.results with packLen := BitVec.ofNat 32 (s.imageSize / 8) } ∧
      (∀ b, b < s.imageSize / 8 → planeHolds (memByte .packmem m (s.regs.packDst.toNat + b)) p.2 inv b) ∧
      ∀ a, ¬(s.regs.packDst.toNat ≤ a ∧ a < s.regs.packDst.toNat + s.imageSize / 8) →
        memByte .packmem m a = memByte .packmem s.bufs.pack a

/-- R205, R206: PACK_4GRAY writes the high plane at PACK_DST and the low plane behind it, and no other byte. -/
def Obligations.FourGrayPackWritesTwoPlanes : Prop :=
  ∀ (s : State) (inv : Bool), s.busy = false → s.geometryHolds → s.imageSize % 8 = 0 →
    s.regs.packDst.toNat + 2 * (s.imageSize / 8) ≤ s.cfg.packBytes →
    exec (.pack4gray inv) s = .next (s.started (.pack4gray inv)) ∧
    ∃ m, (s.started (.pack4gray inv)).afterEngine (s.imageSize / 8) =
        s.doneAfter (.pack4gray inv) (s.imageSize / 8) { s.bufs with pack := m }
          { s.results with packLen := BitVec.ofNat 32 (2 * (s.imageSize / 8)) } ∧
      (∀ b, b < s.imageSize / 8 →
        planeHolds (memByte .packmem m (s.regs.packDst.toNat + b))
          (fun i => decide ((pix s.bufs.pix i .R).toNat / 85 / 2 % 2 = 1)) inv b ∧
        planeHolds (memByte .packmem m (s.regs.packDst.toNat + s.imageSize / 8 + b))
          (fun i => decide ((pix s.bufs.pix i .R).toNat / 85 % 2 = 1)) inv b) ∧
      ∀ a, ¬(s.regs.packDst.toNat ≤ a ∧ a < s.regs.packDst.toNat + 2 * (s.imageSize / 8)) →
        memByte .packmem m a = memByte .packmem s.bufs.pack a

/-- R208: from an image of black and white pixels, PACK_BW's plane gives back every pixel; from any image, PACK_4GRAY's two
planes give back every level. That R208's 1 bpp plane is PACK_BW's is the model's reading (log entry 21). -/
def Obligations.PackedPlanesGiveTheImageBack : Prop :=
  ∀ (s t : State), s.busy = false → s.geometryHolds → s.imageSize % 8 = 0 →
    let pack := (t.afterEngine (s.imageSize / 8)).bufs.pack
    (s.regs.packDst.toNat + s.imageSize / 8 ≤ s.cfg.packBytes → exec (.packBw false) s = .next t →
      (∀ i, i < s.imageSize → pixRgb s.bufs.pix i = ⟨0, 0, 0⟩ ∨ pixRgb s.bufs.pix i = ⟨255, 255, 255⟩) →
      ∀ i, i < s.imageSize → (pixRgb s.bufs.pix i = ⟨255, 255, 255⟩ ↔
        (memByte .packmem pack (s.regs.packDst.toNat + i / 8)).getLsbD (7 - i % 8) = true)) ∧
    (s.regs.packDst.toNat + 2 * (s.imageSize / 8) ≤ s.cfg.packBytes → exec (.pack4gray false) s = .next t →
      ∀ i, i < s.imageSize → (pix s.bufs.pix i .R).toNat / 85 =
        2 * ((memByte .packmem pack (s.regs.packDst.toNat + i / 8)).getLsbD (7 - i % 8)).toNat +
          ((memByte .packmem pack (s.regs.packDst.toNat + s.imageSize / 8 + i / 8)).getLsbD (7 - i % 8)).toNat)

/-- R224, S10: the pace takes no part in a command's acceptance, and a running PIXEL command taken to its end one index a step
ends, from wherever its cursor stands, as running all that is left of it in one Engine step does. -/
def Obligations.TurnsAgreeWithOneStep : Prop :=
  (∀ (i : Instr) (s t : State), exec i s = .next t →
    exec i { s with pace := .byTurns } = .next { t with pace := .byTurns } ∧
    exec i { s with pace := .atOnce } = .next { t with pace := .atOnce }) ∧
  ∀ (p : PixelProgram) (s : State), s.engine.phase = .pixel → pixelProgramOf s.engine.cur = some p → s.pace = .atOnce →
    engineTurn^[p.count s.latched - s.engine.pixCursor + 1] { s with pace := .byTurns } =
      { engineTurn s with pace := .byTurns }

/-- R110 steps 3 and 5: a command that passes its checks is running, its operands latched, and nothing but what acceptance
names has changed. R317: an accepted CMD write makes BUSY = 1 for the next STATUS read, a rejected one ERR valid for the next
read, and a CSR write is seen by the next read of that CSR. -/
def Obligations.AcceptedCommandRuns : Prop :=
  (∀ (i : Instr) (s : State), s.busy = false → firstFailedCheck s i = none →
    exec i s = .next (s.started i) ∧ (s.started i).busy = true ∧ (s.started i).curOp = i.opcode ∧
      (s.started i).latched = s.regs) ∧
  (∀ (i : Instr) (s : State) (rest : List Turn), i.wellFormed = true → s.busy = false → firstFailedCheck s i = none →
    s.agenda = commandTurn (encode i) :: .host (.read .w32 0x008) :: rest →
    ∃ t u, step s = .next t ∧ step t = .next u ∧ u.busData.getLsbD 0 = true) ∧
  (∀ (i : Instr) (s : State) (rest : List Turn) (code : ErrCode), i.wellFormed = true → s.busy = false →
    firstFailedCheck s i = some code → s.agenda = commandTurn (encode i) :: .host (.read .w32 0x00C) :: rest →
    ∃ t u, step s = .next t ∧ step t = .next u ∧ u.busData.toNat = codeValue code + 256 * i.opcode.toNat) ∧
  ∀ (s : State) (rest : List Turn) (v : Word), ∀ p ∈ plainRwCsrs,
    s.agenda = setCsr (BitVec.ofNat 32 p.1) v :: .host (.read .w32 (BitVec.ofNat 32 p.1)) :: rest →
    ∃ t u, step s = .next t ∧ step t = .next u ∧ u.busData.toNat = v.toNat % 2 ^ p.2

/-! ### Transport -/

/-- R226, R232, R220, R44: FRAME_WR, once accepted, queues `[fop] ++ FRAME_DATA[0..len-1]` of the latched bytes behind what TXQ
holds and waits for its response, or, unacknowledged, for TXQ to drain; with TXQ full it waits for space and queues nothing, and
queues its frame when there is space. -/
def Obligations.FrameWrQueuesItsFrame : Prop :=
  (∀ (s : State) (fop : Byte) (len : Nat) (ack : Bool), s.busy = false → len ≤ 19 → s.linkUsable →
    let t := s.started (.frameWr fop len ack)
    exec (.frameWr fop len ack) s = .next t ∧
    engineTurn t =
      if s.tx.queue.length < s.cfg.txqDepth then
        { t with
          engine := { t.engine with chunkCursor := (if ack then 0 else 1), sched := (if ack then .wAck else .wDrain) }
          tx := { queue := s.tx.queue ++ [s.regs.framedData fop len ack], ackPending := ack || s.tx.ackPending, waitCnt := 0 } }
      else { t with engine := { t.engine with sched := .wSpace }, tx := { s.tx with waitCnt := 0 } }) ∧
  ∀ (s : State) (fop : Byte) (len : Nat) (ack : Bool), s.engine.phase = .xport → s.engine.cur = .frameWr fop len ack →
    len ≤ 19 → (s.engine.sched = .run ∨ s.engine.sched = .wSpace) → s.engine.chunkCursor = 0 →
    s.tx.queue.length < s.cfg.txqDepth →
    engineTurn s = { s with
      engine := { s.engine with chunkCursor := (if ack then 0 else 1), sched := (if ack then .wAck else .wDrain) }
      tx := { queue := s.tx.queue ++ [s.latched.framedData fop len ack], ackPending := ack || s.tx.ackPending, waitCnt := 0 } }

/-- R240: BULK sets its progress registers at acceptance; it then queues `[0x03, fop]` acknowledged and waits for its response,
or, with TXQ full, waits for space and queues nothing until there is space. -/
def Obligations.BulkOpensItsTransfer : Prop :=
  (∀ (s : State) (fop : Byte), s.busy = false → s.linkUsable →
    s.regs.bulkSrc.toNat + s.regs.bulkLen.toNat ≤ s.cfg.packBytes →
    let t := s.started (.bulk fop)
    exec (.bulk fop) s = .next t ∧
    engineTurn t =
      if s.tx.queue.length < s.cfg.txqDepth then
        { t with
          engine := { t.engine with sched := .wAck }
          tx := { queue := s.tx.queue ++ [sendCmdEntry fop], ackPending := true, waitCnt := 0 } }
      else { t with engine := { t.engine with sched := .wSpace }, tx := { s.tx with waitCnt := 0 } }) ∧
  ∀ (s : State) (fop : Byte), s.engine.phase = .xport → s.engine.cur = .bulk fop →
    (s.engine.sched = .run ∨ s.engine.sched = .wSpace) → s.engine.chunkCursor = 0 →
    s.tx.queue.length < s.cfg.txqDepth →
    engineTurn s = { s with
      engine := { s.engine with sched := .wAck }
      tx := { queue := s.tx.queue ++ [sendCmdEntry fop], ackPending := true, waitCnt := 0 } }

/-- R248: CONNECT, once accepted, waits for nothing: its one Engine step clears PERM_FAIL and RETRY_CNT, pulses connect_req and
completes. -/
def Obligations.ConnectCompletesAtOnce : Prop :=
  (∀ s : State, s.busy = false → exec .connect s = .next (s.started .connect) ∧
    engineTurn (s.started .connect) = { s with
      latched := s.regs
      engine := { phase := .idle, cur := .connect, pixCursor := 0, chunkCursor := 0, sched := .run }
      status := { s.status with done := true, permFail := false }
      retryCnt := 0
      connectReq := true }) ∧
  ∀ s : State, s.engine.phase = .xport → s.engine.cur = .connect →
    engineTurn s = { s with
      engine := { s.engine with phase := .idle }
      status := { s.status with done := true, permFail := false }
      retryCnt := 0
      connectReq := true }

/-- R240, R241, R242: with space in TXQ, the Engine queues chunk `c` of the payload; an unacknowledged chunk counts in
BULK_IDX at once, an acknowledged one holds the Engine. R232: with TXQ full, a session queues nothing and waits for space. -/
def Obligations.BulkQueuesItsChunks : Prop :=
  (∀ (s : State) (fop : Byte) (c : Nat), s.engine.phase = .xport → s.engine.cur = .bulk fop →
    (s.engine.sched = .run ∨ s.engine.sched = .wSpace) → s.engine.chunkCursor = c → 1 ≤ c →
    s.tx.queue.length < s.cfg.txqDepth →
    let f := bulkChunk s.latched s.bufs.pack c
    let last := (s.latched.bulkLen.toNat + 18) / 19
    engineTurn s =
      if c % (s.latched.interleave.toNat + 1) = 0 then
        { s with
          tx := { queue := s.tx.queue ++ [f], ackPending := true, waitCnt := 0 }
          engine := { s.engine with sched := .wAck } }
      else
        { s with
          tx := { s.tx with queue := s.tx.queue ++ [f], waitCnt := if c < last then s.tx.waitCnt else 0 }
          engine := { s.engine with chunkCursor := c + 1, sched := if c < last then .run else .wDrain }
          progress := { s.progress with bulkIdx := BitVec.ofNat 32 c }
          status := { s.status with prog := true } }) ∧
  ∀ s : State, s.sessionRunning = true → s.cfg.txqDepth ≤ s.tx.queue.length →
    (s.engine.sched = .run →
      engineTurn s = { s with engine := { s.engine with sched := .wSpace }, tx := { s.tx with waitCnt := 0 } }) ∧
    (s.engine.sched = .wSpace → engineTurn s = s)

/-- R242, R240: the acknowledgement schedule of the source's example, and the chunk lengths add up to the payload. -/
def Obligations.ChunksCoverThePayload : Prop :=
  (∀ len : Nat, ((List.range (chunkCount len)).map fun c => chunkLength len (c + 1)).sum = len) ∧
  (∀ len c : Nat, 1 ≤ c → c ≤ chunkCount len → 1 ≤ chunkLength len c ∧ chunkLength len c ≤ 19) ∧
  ((List.range (chunkCount 100)).map fun c => (chunkLength 100 (c + 1), chunkAcked 2 (c + 1))) =
    [(19, false), (19, false), (19, true), (19, false), (19, false), (5, true)]

/-- R36, R236, R10: with ACK_TIMEOUT 0, no number of Clock and Engine turns ends a wait: nothing is queued, taken or
recorded. -/
def Obligations.NoTimeoutWithoutALimit : Prop :=
  ∀ (s : State) (n : Nat), s.waiting = true → s.latched.ackTimeout = 0 → (∀ t ∈ s.agenda, t = .tick ∨ t = .engine) →
    ∃ u, Host.Core.run Sys2Proof.core n s = .next u ∧ u.waiting = true ∧ u.tx.queue = s.tx.queue ∧ u.error = s.error ∧
      u.status = s.status

/-- R233, R111: once TXQ is empty and no response is pending, drain() ends the command with DONE. -/
def Obligations.DrainEndsTheCommand : Prop :=
  ∀ s : State, s.sessionRunning = true → s.engine.sched = .wDrain → s.tx.queue = [] → s.tx.ackPending = false →
    engineTurn s = { s with engine := { s.engine with phase := .idle }, status := { s.status with done := true } }

/-- R245, R234, R236: take(ok) delivers the head, an acknowledged frame being owed its response and an unacknowledged one a
success; take(fail) is for an unacknowledged head only, and with no session running it only removes it; up raises the link's
level. That an event which is not enabled changes nothing, where R245 says only when each is enabled, is the model's choice
(log entry 5). -/
def Obligations.LinkTakesTheHead : Prop :=
  ∀ s : State,
    (∀ f rest, s.link.up = true → s.link.owed = false → s.tx.queue = f :: rest →
      linkStep .takeOk s = { s with
        tx := { s.tx with queue := rest, waitCnt := 0 }
        link := { s.link with stream := s.link.stream ++ [f.bytes], owed := f.ack }
        retryCnt := if f.ack then s.retryCnt else 0 } ∧
      (f.ack = true → linkStep .takeFail s = s) ∧
      (f.ack = false → s.sessionRunning = false →
        linkStep .takeFail s = { s with tx := { s.tx with queue := rest, waitCnt := 0 } })) ∧
    ((s.link.up = false ∨ s.link.owed = true ∨ s.tx.queue = []) → linkStep .takeOk s = s ∧ linkStep .takeFail s = s) ∧
    (s.link.owed = false → linkStep .respOk s = s ∧ linkStep .respFail s = s) ∧
    (s.link.up = false →
      linkStep .up s = { s with link := { s.link with up := true } } ∧ linkStep .down s = s ∧
      ∀ m, linkStep (.notify m) s = s) ∧
    (s.link.up = true → linkStep .up s = s)

/-- R245 resp(ok), R234, R241: the awaited response ends the wait. If the frame was chunk `c` of a BULK, BULK_IDX is `c` and
PROG is set, and the next chunk or the drain is due; FRAME_WR's one frame is followed by the drain. That emit returns within
this step is log entry 11. -/
def Obligations.AwaitedResponseEndsTheWait : Prop :=
  ∀ s : State, s.engine.phase = .xport → s.engine.sched = .wAck → s.tx.ackPending = true → s.link.owed = true →
    let t := { s with
      link := { s.link with owed := false }
      tx := { s.tx with ackPending := false, waitCnt := 0 }
      retryCnt := 0 }
    (∀ (fop : Byte) (c : Nat), s.engine.cur = .bulk fop → s.engine.chunkCursor = c →
      let last := (s.latched.bulkLen.toNat + 18) / 19
      linkStep .respOk s = { t with
        engine := { s.engine with chunkCursor := c + 1, sched := if c < last then .run else .wDrain }
        progress := if 1 ≤ c then { s.progress with bulkIdx := BitVec.ofNat 32 c } else s.progress
        status := if 1 ≤ c then { s.status with prog := true } else s.status }) ∧
    (∀ (fop : Byte) (len : Nat) (ack : Bool), s.engine.cur = .frameWr fop len ack →
      linkStep .respOk s =
        { t with engine := { s.engine with chunkCursor := s.engine.chunkCursor + 1, sched := .wDrain } })

/-- R246: with no response pending, an owed response changes nothing in the block but wait_cnt. That one which is not owed, and
so not enabled (R245), changes nothing is the model's choice (log entry 5). -/
def Obligations.StaleResponseIsIgnored : Prop :=
  ∀ s : State, s.tx.ackPending = false →
    ∀ e, e = .respOk ∨ e = .respFail →
      linkStep e s = if s.link.owed then
        { s with link := { s.link with owed := false }, tx := { s.tx with waitCnt := 0 } } else s

/-- R237, R277, R285: a failed take of an unacknowledged frame, or a failed response that is awaited, ends the session with
WRITE_FAILED, TXQ empty, BULK_IDX kept, and one reconnect attempt or, the budget spent, PERM_FAIL. -/
def Obligations.WriteFailureAbortsTheSession : Prop :=
  ∀ (s : State) (e : LinkEvent), s.sessionRunning = true →
    (e = .takeFail ∧ s.link.up = true ∧ s.link.owed = false ∧ (∃ f rest, s.tx.queue = f :: rest ∧ f.ack = false)) ∨
    (e = .respFail ∧ s.link.owed = true ∧ s.tx.ackPending = true) →
    linkStep e s = { s with
      error := { code := .writeFailed, op := s.engine.cur.opcode }
      status := { s.status with err := true, permFail := s.status.permFail || decide (5 ≤ s.retryCnt.toNat) }
      retryCnt := if s.retryCnt.toNat < 5 then s.retryCnt + 1 else s.retryCnt
      connectReq := s.connectReq || decide (s.retryCnt.toNat < 5)
      tx := { queue := [], ackPending := false, waitCnt := 0 }
      link := { s.link with owed := false }
      engine := { s.engine with phase := .idle } }

/-- R285: of six consecutive failures the first five each make one reconnect attempt; the sixth makes none and is terminal. -/
def Obligations.SixthFailureIsTerminal : Prop :=
  ∀ (s : State) (code : ErrCode), s.retryCnt = 0 → s.status.permFail = false →
    let fail := fun t : State => State.abortTransport code { t with connectReq := false }
    (∀ n, 1 ≤ n → n ≤ 5 → (fail^[n] s).retryCnt.toNat = n ∧ (fail^[n] s).connectReq = true ∧
      (fail^[n] s).status.permFail = false) ∧
    (fail^[6] s).retryCnt.toNat = 5 ∧ (fail^[6] s).connectReq = false ∧ (fail^[6] s).status.permFail = true

/-- R252, R278: a link that goes down while a session runs ends it with DISCONNECTED and discards its progress; RETRY_CNT,
PERM_FAIL and connect_req stay. With no session running it only clears LINK_UP. -/
def Obligations.DisconnectAbortsTheSession : Prop :=
  ∀ s : State, s.link.up = true →
    linkStep .down s =
      if s.sessionRunning then
        { s with
          link := { s.link with up := false, owed := false }
          tx := { s.tx with queue := [], ackPending := false }
          progress := { s.progress with bulkIdx := 0, bulkTotal := 0 }
          error := { code := .disconnected, op := s.engine.cur.opcode }
          status := { s.status with err := true }
          engine := { s.engine with phase := .idle } }
      else { s with link := { s.link with up := false, owed := false } }

/-- R250, R43: a message of eight bytes or more gives PINCFG its first seven, DRIVER_ID its eighth and sets NOTIFY; a
shorter one changes nothing. -/
def Obligations.NotifyRecordsTheDevice : Prop :=
  ∀ (s : State) (m : List Byte), s.link.up = true →
    (m.length < 8 → linkStep (.notify m) s = s) ∧
    (∀ b0 b1 b2 b3 b4 b5 b6 b7 rest, m = b0 :: b1 :: b2 :: b3 :: b4 :: b5 :: b6 :: b7 :: rest →
      ∃ d : DeviceInfo, linkStep (.notify m) s = { s with device := d, status := { s.status with notify := true } } ∧
        d.driverId = b7 ∧ d.pincfgLo = b3 ++ b2 ++ b1 ++ b0 ∧ d.pincfgHi = b6 ++ b5 ++ b4)

/-- R235, R236, R286: what one Clock step does. It ends the connect_req pulse (log entry 10); while a session runs ELAPSED
counts up to 0xFFFFFFFF, in the tick that times the session out as well (log entry 19); while the session is held in a wait
(log entry 9) wait_cnt counts too, and aborts with TIMEOUT when it reaches a nonzero ACK_TIMEOUT. -/
def Obligations.ClockTimesTheWait : Prop :=
  ∀ s : State,
    let t := { s with
      connectReq := false
      progress :=
        { s.progress with elapsed := if s.progress.elapsed = 0xFFFFFFFF then 0xFFFFFFFF else s.progress.elapsed + 1 } }
    let u := { t with tx := { s.tx with waitCnt := s.tx.waitCnt + 1 } }
    (s.sessionRunning = false → clockTick s = { s with connectReq := false }) ∧
    (s.sessionRunning = true → s.waiting = false → clockTick s = t) ∧
    (s.waiting = true → (s.latched.ackTimeout = 0 ∨ s.tx.waitCnt + 1 ≠ s.latched.ackTimeout) → clockTick s = u) ∧
    (s.waiting = true → s.latched.ackTimeout ≠ 0 → s.tx.waitCnt + 1 = s.latched.ackTimeout → clockTick s = { u with
      error := { code := .timeout, op := s.engine.cur.opcode }
      status := { s.status with err := true, permFail := s.status.permFail || decide (5 ≤ s.retryCnt.toNat) }
      retryCnt := if s.retryCnt.toNat < 5 then s.retryCnt + 1 else s.retryCnt
      connectReq := decide (s.retryCnt.toNat < 5)
      tx := { u.tx with queue := [], ackPending := false }
      engine := { s.engine with phase := .idle } })

/-- R240, R245, R233: on a link that takes each frame and answers what it owes with ok, a BULK, whichever of its chunks are
acknowledged, delivers SEND_CMD and then every chunk in order, and completes with BULK_IDX at BULK_TOTAL. That one Engine turn
after each response is enough rests on log entry 11; that a response which is not owed changes nothing, on log entry 5. -/
def Obligations.CooperativeBulkDeliversItsPayload : Prop :=
  ∀ (s t : State) (fop : Byte), s.busy = false → s.linkUsable → s.link.owed = false →
    s.tx.queue = [] → 1 ≤ s.cfg.txqDepth → s.regs.bulkSrc.toNat + s.regs.bulkLen.toNat ≤ s.cfg.packBytes →
    exec (.bulk fop) s = .next t →
    let last := (s.regs.bulkLen.toNat + 18) / 19
    ∃ u, Host.Core.run Sys2Proof.core (3 * (last + 1) + 1) { t with agenda := .engine :: cooperativeTurns (last + 1) } = .next u ∧
      u.busy = false ∧ u.status.done = true ∧ u.error = s.error ∧
      u.link.stream = s.link.stream ++ [0x03, fop] ::
        (List.range last).map (fun c => (bulkChunk s.regs s.bufs.pack (c + 1)).bytes) ∧
      u.progress.bulkTotal = BitVec.ofNat 32 last ∧ u.progress.bulkIdx = BitVec.ofNat 32 last ∧ u.bufs = s.bufs

/-- R282, for a session in its acknowledge wait: the awaited response ok and the tick that would time out, in one cycle and in
either listing, make a success; a disconnect and the response in one cycle make a disconnect. That the session still runs
after its response, its completion being a later Engine step, is log entry 11. -/
def Obligations.OneCycleHasOneOutcome : Prop :=
  ∀ s : State, s.sessionRunning = true → s.engine.sched = .wAck → s.tx.queue = [] → s.tx.ackPending = true →
    s.link.owed = true → s.link.up = true → s.agenda = [] → s.latched.ackTimeout ≠ 0 →
    s.tx.waitCnt + 1 = s.latched.ackTimeout →
    (∀ events, events = [.tick, .link .respOk] ∨ events = [.link .respOk, .tick] →
      ∃ u, Host.Core.run Sys2Proof.core 2 (s.withCycle events) = .next u ∧ u.error = s.error ∧ u.tx.ackPending = false ∧
        u.retryCnt = 0 ∧ u.busy = true) ∧
    (∀ events, events = [.link .down, .link .respOk] ∨ events = [.link .respOk, .link .down] →
      ∃ u, Host.Core.run Sys2Proof.core 2 (s.withCycle events) = .next u ∧ u.error.code = .disconnected ∧ u.busy = false)

/-! ### The host's accesses -/

/-- R75, R76: the machine stops exactly on a host access that R75 does not allow, with a bus error, and no instruction is
refused. That the bus error ends the run is log entry 13. -/
def Obligations.StopsExactlyOnIllegalAccess : Prop :=
  ∀ s : State,
    (∀ f, step s = .fault f ↔ f = .busError ∧ ∃ rest width addr, ¬accessLegal s.cfg width addr.toNat ∧
      (s.agenda = .host (.read width addr) :: rest ∨ ∃ data, s.agenda = .host (.write width addr data) :: rest)) ∧
    ∀ r, step s ≠ .refused r

/-- R79, R279: while a command runs, a legal access to either memory is refused: a read returns 0, a write stores nothing,
and HAZARD with OP 0xFF is recorded; the running command is not affected. A CSR access is never a hazard: whether a command
runs or not, it reads its register, or writes it if it is not CMD. -/
def Obligations.MemoryAccessWhileBusyIsAHazard : Prop :=
  (∀ (s : State) (rest : List Turn) (width : Width) (addr : Word), s.busy = true → 0x1000 ≤ addr.toNat →
    accessLegal s.cfg width addr.toNat →
    (s.agenda = .host (.read width addr) :: rest →
      step s = .next { State.recorded { s with agenda := rest } .hazard 0xFF with busData := 0 }) ∧
    (∀ data, s.agenda = .host (.write width addr data) :: rest →
      step s = .next (State.recorded { s with agenda := rest } .hazard 0xFF))) ∧
  ∀ (s : State) (rest : List Turn) (addr : Word), addr.toNat + 4 ≤ 0x1000 → addr.toNat % 4 = 0 →
    (s.agenda = .host (.read .w32 addr) :: rest →
      step s = .next { s with agenda := rest, busData := csrRead addr.toNat s }) ∧
    (∀ data, addr.toNat ≠ 0x014 → s.agenda = .host (.write .w32 addr data) :: rest →
      step s = .next (csrWrite addr.toNat data { s with agenda := rest }))

/-- R78: a legal read that is not refused changes nothing but what the host has read. -/
def Obligations.ReadsHaveNoSideEffect : Prop :=
  ∀ (s : State) (rest : List Turn) (width : Width) (addr : Word),
    s.agenda = .host (.read width addr) :: rest → accessLegal s.cfg width addr.toNat →
    (s.busy = false ∨ addr.toNat < 0x1000) → ∃ v, step s = .next { s with agenda := rest, busData := v }

/-- R72, R77, R78: with no command running, a memory write followed by a read of the same place returns the datum's low
bytes. In a legal configuration the write stores byte `k` of the datum at the `k`-th address from its own and changes no other
byte, and a read returns the bytes there, the lowest address in the lowest bits; neither changes anything else. -/
def Obligations.MemoryWriteThenReadReturnsIt : Prop :=
  (∀ (s t u : State) (rest : List Turn) (width : Width) (addr data : Word), s.busy = false → 0x1000 ≤ addr.toNat →
    s.agenda = .host (.write width addr data) :: .host (.read width addr) :: rest → step s = .next t → step t = .next u →
    u.busData.toNat = data.toNat % 2 ^ (8 * widthBytes width) ∧
    ∀ b : Word, accessLegal s.cfg .w8 b.toNat →
      b.toNat < addr.toNat ∨ addr.toNat + widthBytes width ≤ b.toNat →
      ∃ v, hostRead .w8 b s = .next { s with busData := v } ∧ hostRead .w8 b t = .next { t with busData := v }) ∧
  ∀ (s : State) (rest : List Turn) (width : Width) (addr : Word), s.cfg.legal → s.busy = false → 0x1000 ≤ addr.toNat →
    accessLegal s.cfg width addr.toNat →
    (∀ data, s.agenda = .host (.write width addr data) :: rest →
      ∃ b, step s = .next { s with agenda := rest, bufs := b } ∧
        ∀ a, 0x00800000 ≤ a → hostByte b a =
          if addr.toNat ≤ a ∧ a < addr.toNat + widthBytes width then data.extractLsb' (8 * (a - addr.toNat)) 8
          else hostByte s.bufs a) ∧
    (s.agenda = .host (.read width addr) :: rest →
      ∃ v, step s = .next { s with agenda := rest, busData := v } ∧
        v.toNat = ((List.range (widthBytes width)).map fun k =>
          (hostByte s.bufs (addr.toNat + k)).toNat * 2 ^ (8 * k)).sum)

/-- R20, R22, R27, S4: each read-write CSR reads back what was written, truncated to its fields: the one-field CSRs, CTRL's
EDGE (written with SRST = 0) and IRQ_EN; the write changes no other CSR and nothing beside the registers. A write of a
read-only or reserved offset changes nothing, and a reserved offset reads 0. -/
def Obligations.CsrWritesFollowTheirAccessType : Prop :=
  (∀ (s : State) (v : Word), ∀ p ∈ plainRwCsrs,
    (csrRead p.1 (csrWrite p.1 v s)).toNat = v.toNat % 2 ^ p.2 ∧
    (∀ q, q ≠ p.1 → csrRead q (csrWrite p.1 v s) = csrRead q s) ∧ ∃ r, csrWrite p.1 v s = { s with regs := r }) ∧
  (∀ (s : State) (v : Word), v.getLsbD 0 = false →
    csrWrite 0x004 v s = { s with regs := { s.regs with edge := v.getLsbD 1 } } ∧
    (∀ k, (csrRead 0x004 (csrWrite 0x004 v s)).getLsbD k = (decide (k = 1) && v.getLsbD 1)) ∧
    ∀ q, q ≠ 0x004 → csrRead q (csrWrite 0x004 v s) = csrRead q s) ∧
  (∀ (s : State) (v : Word),
    (∀ k, (csrRead 0x010 (csrWrite 0x010 v s)).getLsbD k = (decide (1 ≤ k ∧ k ≤ 4) && v.getLsbD k)) ∧
    (∀ q, q ≠ 0x010 → csrRead q (csrWrite 0x010 v s) = csrRead q s) ∧ ∃ e, csrWrite 0x010 v s = { s with irqEn := e }) ∧
  ∀ (s : State) (v : Word) (off : Nat),
    (off ∈ [0x000, 0x00C, 0x02C, 0x038, 0x03C, 0x040, 0x048, 0x04C, 0x06C, 0x070, 0x074, 0x078, 0x07C] ∨ 0x094 ≤ off) →
    csrWrite off v s = s ∧ (0x094 ≤ off → csrRead off s = 0)

/-- R23, R283, R284: STATUS reads its bits, bits 31..8 being 0; a write clears exactly the W1C bits written 1, the ERR
register with its bit, and nothing else; the interrupt line is up exactly if one of bits 4..1 is 1 in STATUS and in IRQ_EN,
so CLR (R114) takes it down. -/
def Obligations.StatusReadsAndClears : Prop :=
  (∀ (s : State) (k : Nat), (csrRead 0x008 s).getLsbD k =
    match k with
    | 0 => s.engine.phase != .idle
    | 1 => s.status.done
    | 2 => s.status.err
    | 3 => s.status.notify
    | 4 => s.status.prog
    | 5 => s.link.up
    | 6 => s.status.permFail
    | 7 => s.tx.queue.isEmpty
    | _ => false) ∧
  (∀ (s : State) (v : Word), csrWrite 0x008 v s = { s with
    status :=
      { done := s.status.done && !v.getLsbD 1
        err := s.status.err && !v.getLsbD 2
        notify := s.status.notify && !v.getLsbD 3
        prog := s.status.prog && !v.getLsbD 4
        permFail := s.status.permFail }
    error := if v.getLsbD 2 then { code := .noError, op := 0 } else s.error }) ∧
  (∀ s : State, s.irq = true ↔
    ∃ k, 1 ≤ k ∧ k ≤ 4 ∧ (csrRead 0x008 s).getLsbD k = true ∧ (csrRead 0x010 s).getLsbD k = true) ∧
  ∀ s : State, (csrWrite 0x008 0x1E s).irq = false

/-- R20, R21, R26, R28, R32, R34, R35, R37, R38, R42, R43: what a read of each CSR that a host write does not store into
returns. TXQ_LEVEL is eight bits wide, so its clause has the premises that bound TXQ. -/
def Obligations.ReadOnlyCsrsShowTheState : Prop :=
  ∀ s : State,
    csrRead 0x000 s = 0x44490007 ∧
    (csrRead 0x00C s).toNat = codeValue s.error.code + 256 * s.error.op.toNat ∧
    csrRead 0x014 s = 0 ∧
    csrRead 0x02C s = s.results.packLen ∧
    csrRead 0x038 s = s.progress.bulkIdx ∧
    csrRead 0x03C s = s.progress.bulkTotal ∧
    csrRead 0x040 s = s.progress.elapsed ∧
    (csrRead 0x048 s).toNat = s.retryCnt.toNat ∧
    (s.cfg.legal → s.queueBounded → (csrRead 0x04C s).toNat = s.tx.queue.length ∧ s.tx.queue.length < 256) ∧
    (csrRead 0x06C s).toNat = s.results.result.toNat ∧
    csrRead 0x070 s = s.results.resultKey ∧
    (csrRead 0x074 s).toNat = s.device.driverId.toNat ∧
    csrRead 0x078 s = s.device.pincfgLo ∧
    (csrRead 0x07C s).toNat = s.device.pincfgHi.toNat

/-- R301, R302, R22: soft reset stops the running command, empties the transmit side and gives every CSR its reset value;
the memories and the Link's own state stay. -/
def Obligations.SoftResetRestoresTheCsrs : Prop :=
  ∀ (s : State) (v : Word), v.getLsbD 0 = true →
    let t := csrWrite 0x004 v s
    (∀ off, csrRead off t = csrResetValue off s.link.up) ∧ t.irq = false ∧ t.bufs = s.bufs ∧ t.link = s.link ∧
    t.busy = false ∧ t.tx.queue = [] ∧ t.tx.ackPending = false ∧ t.tx.waitCnt = 0 ∧ t.connectReq = false

/-! ### Reset and the invariants -/

/-- R300, R52: after power-on every CSR reads its reset value, the transmit side is empty, no command runs, irq is 0, and
every memory byte is the free value. -/
def Obligations.PowerOnValues : Prop :=
  ∀ (cfg : Config) (level : Bool),
    let s := State.powerOn cfg level
    (∀ off, csrRead off s = csrResetValue off level) ∧ s.irq = false ∧ s.busy = false ∧ s.tx.queue = [] ∧
    s.tx.ackPending = false ∧ s.tx.waitCnt = 0 ∧ s.connectReq = false ∧ s.link.up = level ∧
    ∀ a, memByte .pixmem s.bufs.pix a = Config.powerOnByte .pixmem a ∧
      memByte .packmem s.bufs.pack a = Config.powerOnByte .packmem a

/-- The state after reset keeps every promise of Safety.lean, the memories' canonical form (log entry 1) among them, whatever
legal configuration the machine has. -/
def Obligations.ResetIsGood : Prop := State.reset.Good

/-- Every step keeps the memories' canonical form, which is the model's choice (log entry 1). -/
def Obligations.StepKeepsMemoryCanonical : Prop :=
  ∀ s t : State, s.memoryCanonical → step s = .next t → t.memoryCanonical

/-- R38, R53, R81, R220, R232, R233, R246, R285: every step of every agent keeps every promise of Safety.lean. Two of them are
not the spec's words alone: the memories' canonical form is the model's choice (log entry 1), and that a response is pending
exactly in the acknowledge wait (R232) rests on the awaited response ending the wait in its own step (log entry 11). -/
def Obligations.StepKeepsGood : Prop := ∀ s t : State, s.Good → step s = .next t → t.Good

/-- R25, R312: while a command runs, no step changes its latched operands or the command itself. That they also stay in a
step that ends the command, by completion, abort or soft reset, is the model's choice (log entries 3 and 16). -/
def Obligations.RunningCommandKeepsItsOperands : Prop :=
  ∀ s t : State, s.busy = true → step s = .next t → t.latched = s.latched ∧ t.engine.cur = s.engine.cur

/-- R311, R310, R250: while a session runs, no agent's step changes either memory. -/
def Obligations.SessionLeavesTheMemories : Prop :=
  ∀ s t : State, s.sessionRunning = true → step s = .next t → t.bufs = s.bufs
end

