-- ==== Sys2Proof/Laws/State.lean ====
section
/-! SUPPORT. One lemma per field of State and named update, true by rfl, so that no later proof unfolds a record update. -/

namespace Sys2Proof.Machine

/-! ### raise -/

@[simp] theorem raise_cfg (code : ErrCode) (op : Byte) (s : State) : (s.raise code op).cfg = s.cfg := rfl
@[simp] theorem raise_regs (code : ErrCode) (op : Byte) (s : State) : (s.raise code op).regs = s.regs := rfl
@[simp] theorem raise_latched (code : ErrCode) (op : Byte) (s : State) : (s.raise code op).latched = s.latched := rfl
@[simp] theorem raise_status (code : ErrCode) (op : Byte) (s : State) : (s.raise code op).status = { s.status with err := true } := rfl
@[simp] theorem raise_error (code : ErrCode) (op : Byte) (s : State) : (s.raise code op).error = { code := code, op := op } := rfl
@[simp] theorem raise_irqEn (code : ErrCode) (op : Byte) (s : State) : (s.raise code op).irqEn = s.irqEn := rfl
@[simp] theorem raise_results (code : ErrCode) (op : Byte) (s : State) : (s.raise code op).results = s.results := rfl
@[simp] theorem raise_progress (code : ErrCode) (op : Byte) (s : State) : (s.raise code op).progress = s.progress := rfl
@[simp] theorem raise_retryCnt (code : ErrCode) (op : Byte) (s : State) : (s.raise code op).retryCnt = s.retryCnt := rfl
@[simp] theorem raise_device (code : ErrCode) (op : Byte) (s : State) : (s.raise code op).device = s.device := rfl
@[simp] theorem raise_bufs (code : ErrCode) (op : Byte) (s : State) : (s.raise code op).bufs = s.bufs := rfl
@[simp] theorem raise_tx (code : ErrCode) (op : Byte) (s : State) : (s.raise code op).tx = s.tx := rfl
@[simp] theorem raise_engine (code : ErrCode) (op : Byte) (s : State) : (s.raise code op).engine = s.engine := rfl
@[simp] theorem raise_connectReq (code : ErrCode) (op : Byte) (s : State) : (s.raise code op).connectReq = s.connectReq := rfl
@[simp] theorem raise_link (code : ErrCode) (op : Byte) (s : State) : (s.raise code op).link = s.link := rfl
@[simp] theorem raise_busData (code : ErrCode) (op : Byte) (s : State) : (s.raise code op).busData = s.busData := rfl
@[simp] theorem raise_agenda (code : ErrCode) (op : Byte) (s : State) : (s.raise code op).agenda = s.agenda := rfl
@[simp] theorem raise_pace (code : ErrCode) (op : Byte) (s : State) : (s.raise code op).pace = s.pace := rfl

/-! ### hazard -/

@[simp] theorem hazard_cfg (s : State) : (s.hazard).cfg = s.cfg := rfl
@[simp] theorem hazard_regs (s : State) : (s.hazard).regs = s.regs := rfl
@[simp] theorem hazard_latched (s : State) : (s.hazard).latched = s.latched := rfl
@[simp] theorem hazard_status (s : State) : (s.hazard).status = { s.status with err := true } := rfl
@[simp] theorem hazard_error (s : State) : (s.hazard).error = { code := .hazard, op := 0xFF } := rfl
@[simp] theorem hazard_irqEn (s : State) : (s.hazard).irqEn = s.irqEn := rfl
@[simp] theorem hazard_results (s : State) : (s.hazard).results = s.results := rfl
@[simp] theorem hazard_progress (s : State) : (s.hazard).progress = s.progress := rfl
@[simp] theorem hazard_retryCnt (s : State) : (s.hazard).retryCnt = s.retryCnt := rfl
@[simp] theorem hazard_device (s : State) : (s.hazard).device = s.device := rfl
@[simp] theorem hazard_bufs (s : State) : (s.hazard).bufs = s.bufs := rfl
@[simp] theorem hazard_tx (s : State) : (s.hazard).tx = s.tx := rfl
@[simp] theorem hazard_engine (s : State) : (s.hazard).engine = s.engine := rfl
@[simp] theorem hazard_connectReq (s : State) : (s.hazard).connectReq = s.connectReq := rfl
@[simp] theorem hazard_link (s : State) : (s.hazard).link = s.link := rfl
@[simp] theorem hazard_busData (s : State) : (s.hazard).busData = s.busData := rfl
@[simp] theorem hazard_agenda (s : State) : (s.hazard).agenda = s.agenda := rfl
@[simp] theorem hazard_pace (s : State) : (s.hazard).pace = s.pace := rfl

/-! ### clearError -/

@[simp] theorem clearError_cfg (s : State) : (s.clearError).cfg = s.cfg := rfl
@[simp] theorem clearError_regs (s : State) : (s.clearError).regs = s.regs := rfl
@[simp] theorem clearError_latched (s : State) : (s.clearError).latched = s.latched := rfl
@[simp] theorem clearError_status (s : State) : (s.clearError).status = { s.status with err := false } := rfl
@[simp] theorem clearError_error (s : State) : (s.clearError).error = { code := .noError, op := 0 } := rfl
@[simp] theorem clearError_irqEn (s : State) : (s.clearError).irqEn = s.irqEn := rfl
@[simp] theorem clearError_results (s : State) : (s.clearError).results = s.results := rfl
@[simp] theorem clearError_progress (s : State) : (s.clearError).progress = s.progress := rfl
@[simp] theorem clearError_retryCnt (s : State) : (s.clearError).retryCnt = s.retryCnt := rfl
@[simp] theorem clearError_device (s : State) : (s.clearError).device = s.device := rfl
@[simp] theorem clearError_bufs (s : State) : (s.clearError).bufs = s.bufs := rfl
@[simp] theorem clearError_tx (s : State) : (s.clearError).tx = s.tx := rfl
@[simp] theorem clearError_engine (s : State) : (s.clearError).engine = s.engine := rfl
@[simp] theorem clearError_connectReq (s : State) : (s.clearError).connectReq = s.connectReq := rfl
@[simp] theorem clearError_link (s : State) : (s.clearError).link = s.link := rfl
@[simp] theorem clearError_busData (s : State) : (s.clearError).busData = s.busData := rfl
@[simp] theorem clearError_agenda (s : State) : (s.clearError).agenda = s.agenda := rfl
@[simp] theorem clearError_pace (s : State) : (s.clearError).pace = s.pace := rfl

/-! ### flushTx -/

@[simp] theorem flushTx_cfg (s : State) : (s.flushTx).cfg = s.cfg := rfl
@[simp] theorem flushTx_regs (s : State) : (s.flushTx).regs = s.regs := rfl
@[simp] theorem flushTx_latched (s : State) : (s.flushTx).latched = s.latched := rfl
@[simp] theorem flushTx_status (s : State) : (s.flushTx).status = s.status := rfl
@[simp] theorem flushTx_error (s : State) : (s.flushTx).error = s.error := rfl
@[simp] theorem flushTx_irqEn (s : State) : (s.flushTx).irqEn = s.irqEn := rfl
@[simp] theorem flushTx_results (s : State) : (s.flushTx).results = s.results := rfl
@[simp] theorem flushTx_progress (s : State) : (s.flushTx).progress = s.progress := rfl
@[simp] theorem flushTx_retryCnt (s : State) : (s.flushTx).retryCnt = s.retryCnt := rfl
@[simp] theorem flushTx_device (s : State) : (s.flushTx).device = s.device := rfl
@[simp] theorem flushTx_bufs (s : State) : (s.flushTx).bufs = s.bufs := rfl
@[simp] theorem flushTx_tx (s : State) : (s.flushTx).tx = { s.tx with queue := [], ackPending := false } := rfl
@[simp] theorem flushTx_engine (s : State) : (s.flushTx).engine = s.engine := rfl
@[simp] theorem flushTx_connectReq (s : State) : (s.flushTx).connectReq = s.connectReq := rfl
@[simp] theorem flushTx_link (s : State) : (s.flushTx).link = s.link := rfl
@[simp] theorem flushTx_busData (s : State) : (s.flushTx).busData = s.busData := rfl
@[simp] theorem flushTx_agenda (s : State) : (s.flushTx).agenda = s.agenda := rfl
@[simp] theorem flushTx_pace (s : State) : (s.flushTx).pace = s.pace := rfl

/-! ### endCommand -/

@[simp] theorem endCommand_cfg (s : State) : (s.endCommand).cfg = s.cfg := rfl
@[simp] theorem endCommand_regs (s : State) : (s.endCommand).regs = s.regs := rfl
@[simp] theorem endCommand_latched (s : State) : (s.endCommand).latched = s.latched := rfl
@[simp] theorem endCommand_status (s : State) : (s.endCommand).status = s.status := rfl
@[simp] theorem endCommand_error (s : State) : (s.endCommand).error = s.error := rfl
@[simp] theorem endCommand_irqEn (s : State) : (s.endCommand).irqEn = s.irqEn := rfl
@[simp] theorem endCommand_results (s : State) : (s.endCommand).results = s.results := rfl
@[simp] theorem endCommand_progress (s : State) : (s.endCommand).progress = s.progress := rfl
@[simp] theorem endCommand_retryCnt (s : State) : (s.endCommand).retryCnt = s.retryCnt := rfl
@[simp] theorem endCommand_device (s : State) : (s.endCommand).device = s.device := rfl
@[simp] theorem endCommand_bufs (s : State) : (s.endCommand).bufs = s.bufs := rfl
@[simp] theorem endCommand_tx (s : State) : (s.endCommand).tx = s.tx := rfl
@[simp] theorem endCommand_engine (s : State) : (s.endCommand).engine = { s.engine with phase := .idle } := rfl
@[simp] theorem endCommand_connectReq (s : State) : (s.endCommand).connectReq = s.connectReq := rfl
@[simp] theorem endCommand_link (s : State) : (s.endCommand).link = s.link := rfl
@[simp] theorem endCommand_busData (s : State) : (s.endCommand).busData = s.busData := rfl
@[simp] theorem endCommand_agenda (s : State) : (s.endCommand).agenda = s.agenda := rfl
@[simp] theorem endCommand_pace (s : State) : (s.endCommand).pace = s.pace := rfl

/-! ### writeSucceeded -/

@[simp] theorem writeSucceeded_cfg (s : State) : (s.writeSucceeded).cfg = s.cfg := rfl
@[simp] theorem writeSucceeded_regs (s : State) : (s.writeSucceeded).regs = s.regs := rfl
@[simp] theorem writeSucceeded_latched (s : State) : (s.writeSucceeded).latched = s.latched := rfl
@[simp] theorem writeSucceeded_status (s : State) : (s.writeSucceeded).status = s.status := rfl
@[simp] theorem writeSucceeded_error (s : State) : (s.writeSucceeded).error = s.error := rfl
@[simp] theorem writeSucceeded_irqEn (s : State) : (s.writeSucceeded).irqEn = s.irqEn := rfl
@[simp] theorem writeSucceeded_results (s : State) : (s.writeSucceeded).results = s.results := rfl
@[simp] theorem writeSucceeded_progress (s : State) : (s.writeSucceeded).progress = s.progress := rfl
@[simp] theorem writeSucceeded_retryCnt (s : State) : (s.writeSucceeded).retryCnt = 0 := rfl
@[simp] theorem writeSucceeded_device (s : State) : (s.writeSucceeded).device = s.device := rfl
@[simp] theorem writeSucceeded_bufs (s : State) : (s.writeSucceeded).bufs = s.bufs := rfl
@[simp] theorem writeSucceeded_tx (s : State) : (s.writeSucceeded).tx = s.tx := rfl
@[simp] theorem writeSucceeded_engine (s : State) : (s.writeSucceeded).engine = s.engine := rfl
@[simp] theorem writeSucceeded_connectReq (s : State) : (s.writeSucceeded).connectReq = s.connectReq := rfl
@[simp] theorem writeSucceeded_link (s : State) : (s.writeSucceeded).link = s.link := rfl
@[simp] theorem writeSucceeded_busData (s : State) : (s.writeSucceeded).busData = s.busData := rfl
@[simp] theorem writeSucceeded_agenda (s : State) : (s.writeSucceeded).agenda = s.agenda := rfl
@[simp] theorem writeSucceeded_pace (s : State) : (s.writeSucceeded).pace = s.pace := rfl

/-! ### complete -/

@[simp] theorem complete_cfg (s : State) : (s.complete).cfg = s.cfg := rfl
@[simp] theorem complete_regs (s : State) : (s.complete).regs = s.regs := rfl
@[simp] theorem complete_latched (s : State) : (s.complete).latched = s.latched := rfl
@[simp] theorem complete_status (s : State) : (s.complete).status = { s.status with done := true } := rfl
@[simp] theorem complete_error (s : State) : (s.complete).error = s.error := rfl
@[simp] theorem complete_irqEn (s : State) : (s.complete).irqEn = s.irqEn := rfl
@[simp] theorem complete_results (s : State) : (s.complete).results = s.results := rfl
@[simp] theorem complete_progress (s : State) : (s.complete).progress = s.progress := rfl
@[simp] theorem complete_retryCnt (s : State) : (s.complete).retryCnt = s.retryCnt := rfl
@[simp] theorem complete_device (s : State) : (s.complete).device = s.device := rfl
@[simp] theorem complete_bufs (s : State) : (s.complete).bufs = s.bufs := rfl
@[simp] theorem complete_tx (s : State) : (s.complete).tx = s.tx := rfl
@[simp] theorem complete_engine (s : State) : (s.complete).engine = { s.engine with phase := .idle } := rfl
@[simp] theorem complete_connectReq (s : State) : (s.complete).connectReq = s.connectReq := rfl
@[simp] theorem complete_link (s : State) : (s.complete).link = s.link := rfl
@[simp] theorem complete_busData (s : State) : (s.complete).busData = s.busData := rfl
@[simp] theorem complete_agenda (s : State) : (s.complete).agenda = s.agenda := rfl
@[simp] theorem complete_pace (s : State) : (s.complete).pace = s.pace := rfl

/-! ### begin -/

@[simp] theorem begin_cfg (i : Instr) (ph : Phase) (s : State) : (s.begin i ph).cfg = s.cfg := rfl
@[simp] theorem begin_regs (i : Instr) (ph : Phase) (s : State) : (s.begin i ph).regs = s.regs := rfl
@[simp] theorem begin_latched (i : Instr) (ph : Phase) (s : State) : (s.begin i ph).latched = s.regs := rfl
@[simp] theorem begin_status (i : Instr) (ph : Phase) (s : State) : (s.begin i ph).status = s.status := rfl
@[simp] theorem begin_error (i : Instr) (ph : Phase) (s : State) : (s.begin i ph).error = s.error := rfl
@[simp] theorem begin_irqEn (i : Instr) (ph : Phase) (s : State) : (s.begin i ph).irqEn = s.irqEn := rfl
@[simp] theorem begin_results (i : Instr) (ph : Phase) (s : State) : (s.begin i ph).results = s.results := rfl
@[simp] theorem begin_progress (i : Instr) (ph : Phase) (s : State) : (s.begin i ph).progress = s.progress := rfl
@[simp] theorem begin_retryCnt (i : Instr) (ph : Phase) (s : State) : (s.begin i ph).retryCnt = s.retryCnt := rfl
@[simp] theorem begin_device (i : Instr) (ph : Phase) (s : State) : (s.begin i ph).device = s.device := rfl
@[simp] theorem begin_bufs (i : Instr) (ph : Phase) (s : State) : (s.begin i ph).bufs = s.bufs := rfl
@[simp] theorem begin_tx (i : Instr) (ph : Phase) (s : State) : (s.begin i ph).tx = s.tx := rfl
@[simp] theorem begin_engine (i : Instr) (ph : Phase) (s : State) : (s.begin i ph).engine = { phase := ph, cur := i, pixCursor := 0, chunkCursor := 0, sched := .run } := rfl
@[simp] theorem begin_connectReq (i : Instr) (ph : Phase) (s : State) : (s.begin i ph).connectReq = s.connectReq := rfl
@[simp] theorem begin_link (i : Instr) (ph : Phase) (s : State) : (s.begin i ph).link = s.link := rfl
@[simp] theorem begin_busData (i : Instr) (ph : Phase) (s : State) : (s.begin i ph).busData = s.busData := rfl
@[simp] theorem begin_agenda (i : Instr) (ph : Phase) (s : State) : (s.begin i ph).agenda = s.agenda := rfl
@[simp] theorem begin_pace (i : Instr) (ph : Phase) (s : State) : (s.begin i ph).pace = s.pace := rfl

/-! ### enterWait -/

@[simp] theorem enterWait_cfg (w : Sched) (s : State) : (s.enterWait w).cfg = s.cfg := rfl
@[simp] theorem enterWait_regs (w : Sched) (s : State) : (s.enterWait w).regs = s.regs := rfl
@[simp] theorem enterWait_latched (w : Sched) (s : State) : (s.enterWait w).latched = s.latched := rfl
@[simp] theorem enterWait_status (w : Sched) (s : State) : (s.enterWait w).status = s.status := rfl
@[simp] theorem enterWait_error (w : Sched) (s : State) : (s.enterWait w).error = s.error := rfl
@[simp] theorem enterWait_irqEn (w : Sched) (s : State) : (s.enterWait w).irqEn = s.irqEn := rfl
@[simp] theorem enterWait_results (w : Sched) (s : State) : (s.enterWait w).results = s.results := rfl
@[simp] theorem enterWait_progress (w : Sched) (s : State) : (s.enterWait w).progress = s.progress := rfl
@[simp] theorem enterWait_retryCnt (w : Sched) (s : State) : (s.enterWait w).retryCnt = s.retryCnt := rfl
@[simp] theorem enterWait_device (w : Sched) (s : State) : (s.enterWait w).device = s.device := rfl
@[simp] theorem enterWait_bufs (w : Sched) (s : State) : (s.enterWait w).bufs = s.bufs := rfl
@[simp] theorem enterWait_tx (w : Sched) (s : State) : (s.enterWait w).tx = { s.tx with waitCnt := 0 } := rfl
@[simp] theorem enterWait_engine (w : Sched) (s : State) : (s.enterWait w).engine = { s.engine with sched := w } := rfl
@[simp] theorem enterWait_connectReq (w : Sched) (s : State) : (s.enterWait w).connectReq = s.connectReq := rfl
@[simp] theorem enterWait_link (w : Sched) (s : State) : (s.enterWait w).link = s.link := rfl
@[simp] theorem enterWait_busData (w : Sched) (s : State) : (s.enterWait w).busData = s.busData := rfl
@[simp] theorem enterWait_agenda (w : Sched) (s : State) : (s.enterWait w).agenda = s.agenda := rfl
@[simp] theorem enterWait_pace (w : Sched) (s : State) : (s.enterWait w).pace = s.pace := rfl

/-! ### clearWait -/

@[simp] theorem clearWait_cfg (s : State) : (s.clearWait).cfg = s.cfg := rfl
@[simp] theorem clearWait_regs (s : State) : (s.clearWait).regs = s.regs := rfl
@[simp] theorem clearWait_latched (s : State) : (s.clearWait).latched = s.latched := rfl
@[simp] theorem clearWait_status (s : State) : (s.clearWait).status = s.status := rfl
@[simp] theorem clearWait_error (s : State) : (s.clearWait).error = s.error := rfl
@[simp] theorem clearWait_irqEn (s : State) : (s.clearWait).irqEn = s.irqEn := rfl
@[simp] theorem clearWait_results (s : State) : (s.clearWait).results = s.results := rfl
@[simp] theorem clearWait_progress (s : State) : (s.clearWait).progress = s.progress := rfl
@[simp] theorem clearWait_retryCnt (s : State) : (s.clearWait).retryCnt = s.retryCnt := rfl
@[simp] theorem clearWait_device (s : State) : (s.clearWait).device = s.device := rfl
@[simp] theorem clearWait_bufs (s : State) : (s.clearWait).bufs = s.bufs := rfl
@[simp] theorem clearWait_tx (s : State) : (s.clearWait).tx = { s.tx with waitCnt := 0 } := rfl
@[simp] theorem clearWait_engine (s : State) : (s.clearWait).engine = s.engine := rfl
@[simp] theorem clearWait_connectReq (s : State) : (s.clearWait).connectReq = s.connectReq := rfl
@[simp] theorem clearWait_link (s : State) : (s.clearWait).link = s.link := rfl
@[simp] theorem clearWait_busData (s : State) : (s.clearWait).busData = s.busData := rfl
@[simp] theorem clearWait_agenda (s : State) : (s.clearWait).agenda = s.agenda := rfl
@[simp] theorem clearWait_pace (s : State) : (s.clearWait).pace = s.pace := rfl

/-! ### startFrame -/

@[simp] theorem startFrame_cfg (s : State) : (startFrame s).cfg = s.cfg := rfl
@[simp] theorem startFrame_regs (s : State) : (startFrame s).regs = s.regs := rfl
@[simp] theorem startFrame_latched (s : State) : (startFrame s).latched = s.latched := rfl
@[simp] theorem startFrame_status (s : State) : (startFrame s).status = s.status := rfl
@[simp] theorem startFrame_error (s : State) : (startFrame s).error = s.error := rfl
@[simp] theorem startFrame_irqEn (s : State) : (startFrame s).irqEn = s.irqEn := rfl
@[simp] theorem startFrame_results (s : State) : (startFrame s).results = s.results := rfl
@[simp] theorem startFrame_progress (s : State) : (startFrame s).progress = { s.progress with elapsed := 0 } := rfl
@[simp] theorem startFrame_retryCnt (s : State) : (startFrame s).retryCnt = s.retryCnt := rfl
@[simp] theorem startFrame_device (s : State) : (startFrame s).device = s.device := rfl
@[simp] theorem startFrame_bufs (s : State) : (startFrame s).bufs = s.bufs := rfl
@[simp] theorem startFrame_tx (s : State) : (startFrame s).tx = s.tx := rfl
@[simp] theorem startFrame_engine (s : State) : (startFrame s).engine = s.engine := rfl
@[simp] theorem startFrame_connectReq (s : State) : (startFrame s).connectReq = s.connectReq := rfl
@[simp] theorem startFrame_link (s : State) : (startFrame s).link = s.link := rfl
@[simp] theorem startFrame_busData (s : State) : (startFrame s).busData = s.busData := rfl
@[simp] theorem startFrame_agenda (s : State) : (startFrame s).agenda = s.agenda := rfl
@[simp] theorem startFrame_pace (s : State) : (startFrame s).pace = s.pace := rfl

/-! ### startBulk -/

@[simp] theorem startBulk_cfg (s : State) : (startBulk s).cfg = s.cfg := rfl
@[simp] theorem startBulk_regs (s : State) : (startBulk s).regs = s.regs := rfl
@[simp] theorem startBulk_latched (s : State) : (startBulk s).latched = s.latched := rfl
@[simp] theorem startBulk_status (s : State) : (startBulk s).status = s.status := rfl
@[simp] theorem startBulk_error (s : State) : (startBulk s).error = s.error := rfl
@[simp] theorem startBulk_irqEn (s : State) : (startBulk s).irqEn = s.irqEn := rfl
@[simp] theorem startBulk_results (s : State) : (startBulk s).results = s.results := rfl
@[simp] theorem startBulk_progress (s : State) : (startBulk s).progress = { bulkIdx := 0, bulkTotal := toWord (chunkCount s.latched.bulkLen.toNat), elapsed := 0 } := rfl
@[simp] theorem startBulk_retryCnt (s : State) : (startBulk s).retryCnt = s.retryCnt := rfl
@[simp] theorem startBulk_device (s : State) : (startBulk s).device = s.device := rfl
@[simp] theorem startBulk_bufs (s : State) : (startBulk s).bufs = s.bufs := rfl
@[simp] theorem startBulk_tx (s : State) : (startBulk s).tx = s.tx := rfl
@[simp] theorem startBulk_engine (s : State) : (startBulk s).engine = s.engine := rfl
@[simp] theorem startBulk_connectReq (s : State) : (startBulk s).connectReq = s.connectReq := rfl
@[simp] theorem startBulk_link (s : State) : (startBulk s).link = s.link := rfl
@[simp] theorem startBulk_busData (s : State) : (startBulk s).busData = s.busData := rfl
@[simp] theorem startBulk_agenda (s : State) : (startBulk s).agenda = s.agenda := rfl
@[simp] theorem startBulk_pace (s : State) : (startBulk s).pace = s.pace := rfl

/-! ### connectTurn -/

@[simp] theorem connectTurn_cfg (s : State) : (connectTurn s).cfg = s.cfg := rfl
@[simp] theorem connectTurn_regs (s : State) : (connectTurn s).regs = s.regs := rfl
@[simp] theorem connectTurn_latched (s : State) : (connectTurn s).latched = s.latched := rfl
@[simp] theorem connectTurn_status (s : State) : (connectTurn s).status = { s.status with permFail := false, done := true } := rfl
@[simp] theorem connectTurn_error (s : State) : (connectTurn s).error = s.error := rfl
@[simp] theorem connectTurn_irqEn (s : State) : (connectTurn s).irqEn = s.irqEn := rfl
@[simp] theorem connectTurn_results (s : State) : (connectTurn s).results = s.results := rfl
@[simp] theorem connectTurn_progress (s : State) : (connectTurn s).progress = s.progress := rfl
@[simp] theorem connectTurn_retryCnt (s : State) : (connectTurn s).retryCnt = 0 := rfl
@[simp] theorem connectTurn_device (s : State) : (connectTurn s).device = s.device := rfl
@[simp] theorem connectTurn_bufs (s : State) : (connectTurn s).bufs = s.bufs := rfl
@[simp] theorem connectTurn_tx (s : State) : (connectTurn s).tx = s.tx := rfl
@[simp] theorem connectTurn_engine (s : State) : (connectTurn s).engine = { s.engine with phase := .idle } := rfl
@[simp] theorem connectTurn_connectReq (s : State) : (connectTurn s).connectReq = true := rfl
@[simp] theorem connectTurn_link (s : State) : (connectTurn s).link = s.link := rfl
@[simp] theorem connectTurn_busData (s : State) : (connectTurn s).busData = s.busData := rfl
@[simp] theorem connectTurn_agenda (s : State) : (connectTurn s).agenda = s.agenda := rfl
@[simp] theorem connectTurn_pace (s : State) : (connectTurn s).pace = s.pace := rfl

/-! ### softReset -/

@[simp] theorem softReset_cfg (s : State) : (s.softReset).cfg = s.cfg := rfl
@[simp] theorem softReset_regs (s : State) : (s.softReset).regs = OperandRegs.reset := rfl
@[simp] theorem softReset_latched (s : State) : (s.softReset).latched = s.latched := rfl
@[simp] theorem softReset_status (s : State) : (s.softReset).status = { done := false, err := false, notify := false, prog := false, permFail := false } := rfl
@[simp] theorem softReset_error (s : State) : (s.softReset).error = { code := .noError, op := 0 } := rfl
@[simp] theorem softReset_irqEn (s : State) : (s.softReset).irqEn = { doneIe := false, errIe := false, notifyIe := false, progIe := false } := rfl
@[simp] theorem softReset_results (s : State) : (s.softReset).results = { packLen := 0, result := 0, resultKey := 0 } := rfl
@[simp] theorem softReset_progress (s : State) : (s.softReset).progress = { bulkIdx := 0, bulkTotal := 0, elapsed := 0 } := rfl
@[simp] theorem softReset_retryCnt (s : State) : (s.softReset).retryCnt = 0 := rfl
@[simp] theorem softReset_device (s : State) : (s.softReset).device = { driverId := 0, pincfgLo := 0, pincfgHi := 0 } := rfl
@[simp] theorem softReset_bufs (s : State) : (s.softReset).bufs = s.bufs := rfl
@[simp] theorem softReset_tx (s : State) : (s.softReset).tx = { queue := [], ackPending := false, waitCnt := 0 } := rfl
@[simp] theorem softReset_engine (s : State) : (s.softReset).engine = { s.engine with phase := .idle } := rfl
@[simp] theorem softReset_connectReq (s : State) : (s.softReset).connectReq = false := rfl
@[simp] theorem softReset_link (s : State) : (s.softReset).link = s.link := rfl
@[simp] theorem softReset_busData (s : State) : (s.softReset).busData = s.busData := rfl
@[simp] theorem softReset_agenda (s : State) : (s.softReset).agenda = s.agenda := rfl
@[simp] theorem softReset_pace (s : State) : (s.softReset).pace = s.pace := rfl

end Sys2Proof.Machine
end

