-- ==== Sys2Proof/Laws/Accept.lean ====
section
/-! SUPPORT. What accepting a command can do (spec 30_encoding.md R110, R112), once for every command. -/

namespace Sys2Proof.Machine

theorem acceptCommand_busy (i : Instr) (ph : Phase) (check : State → Option ErrCode) (start : State → State) (s : State)
    (h : s.busy = true) : acceptCommand i ph check start s = .next (s.raise .busy i.opcode) := by
  simp [acceptCommand, h]

theorem acceptCommand_failed (i : Instr) (ph : Phase) (check : State → Option ErrCode) (start : State → State) (s : State)
    (code : ErrCode) (h : s.busy = false) (hc : check s = some code) :
    acceptCommand i ph check start s = .next (s.raise code i.opcode) := by
  simp [acceptCommand, h, hc]

theorem acceptCommand_passed (i : Instr) (ph : Phase) (check : State → Option ErrCode) (start : State → State) (s : State)
    (h : s.busy = false) (hc : check s = none) :
    acceptCommand i ph check start s = .next (start (s.begin i ph)) := by
  simp [acceptCommand, h, hc]

/-- Everything acceptance can do. -/
theorem acceptCommand_cases (i : Instr) (ph : Phase) (check : State → Option ErrCode) (start : State → State) (s t : State)
    (h : acceptCommand i ph check start s = .next t) :
    (s.busy = true ∧ t = s.raise .busy i.opcode) ∨
    (s.busy = false ∧ ∃ code, check s = some code ∧ t = s.raise code i.opcode) ∨
    (s.busy = false ∧ check s = none ∧ t = start (s.begin i ph)) := by
  unfold acceptCommand at h
  split at h
  next hb => injection h with h; exact .inl ⟨hb, h.symm⟩
  next hb =>
    have hb : s.busy = false := by simpa using hb
    split at h
    next code hc => injection h with h; exact .inr (.inl ⟨hb, code, hc, h.symm⟩)
    next hc => injection h with h; exact .inr (.inr ⟨hb, hc, h.symm⟩)

theorem acceptCommand_total (i : Instr) (ph : Phase) (check : State → Option ErrCode) (start : State → State) (s : State) :
    ∃ t, acceptCommand i ph check start s = .next t := by
  unfold acceptCommand
  split
  · exact ⟨_, rfl⟩
  · split <;> exact ⟨_, rfl⟩

/-! ### The operand checks are R112's table -/

theorem geometryOk_iff (s : State) : geometryOk s.cfg s.regs = true ↔ s.geometryHolds := by
  unfold geometryOk State.geometryHolds OperandRegs.pixels OperandRegs.width OperandRegs.height
  rw [Bool.and_eq_true, Bool.and_eq_true, decide_eq_true_iff, decide_eq_true_iff, decide_eq_true_iff, and_assoc]

theorem paletteOk_iff (r : OperandRegs) : paletteOk r = true ↔ 1 ≤ r.palCnt.toNat ∧ r.palCnt.toNat ≤ 4 := by
  simp [paletteOk]

theorem linkOk_iff (s : State) : (s.link.up && !s.status.permFail) = true ↔ s.linkUsable := by
  unfold State.linkUsable
  rw [Bool.and_eq_true, Bool.not_eq_true']

theorem checkGeometry_eq (s : State) : checkGeometry s = if s.geometryHolds then none else some .config :=
  if_congr (geometryOk_iff s) rfl rfl

theorem checkPalette_eq (s : State) :
    checkPalette s = if 1 ≤ s.regs.palCnt.toNat ∧ s.regs.palCnt.toNat ≤ 4 then none else some .config :=
  if_congr (paletteOk_iff s.regs) rfl rfl

theorem checkLink_eq (s : State) : checkLink s = if s.linkUsable then none else some .transportUnavailable :=
  if_congr (linkOk_iff s) rfl rfl

theorem thenCheck_if (p : Prop) [Decidable p] (e : ErrCode) (next : Option ErrCode) :
    thenCheck (if p then none else some e) next = if p then next else some e := by
  by_cases h : p <;> simp [h, thenCheck]

theorem if_if_and (p q : Prop) [Decidable p] [Decidable q] (e : ErrCode) :
    (if p then (if q then none else some e) else some e) = if p ∧ q then none else some e := by
  by_cases hp : p <;> by_cases hq : q <;> simp [hp, hq]

theorem checkGray_eq (s : State) : checkGray s = firstFailedCheck s .dthGray := by
  unfold checkGray
  rw [checkGeometry_eq, thenCheck_if, if_if_and]
  rfl

theorem checkPaletteDither_eq (s : State) :
    checkPaletteDither s =
      if s.geometryHolds ∧ 1 ≤ s.regs.palCnt.toNat ∧ s.regs.palCnt.toNat ≤ 4 then none else some .config := by
  unfold checkPaletteDither
  rw [checkGeometry_eq, checkPalette_eq, thenCheck_if, if_if_and]

theorem checkPack_eq (n : Nat) (s : State) :
    checkPack n s =
      if ¬s.geometryHolds then some .config
      else if s.imageSize % 8 ≠ 0 then some .packSize
      else if s.regs.packDst.toNat + n * (s.imageSize / 8) ≤ s.cfg.packBytes then none else some .config := by
  unfold checkPack
  rw [checkGeometry_eq, thenCheck_if, thenCheck_if, ite_not]
  refine if_congr Iff.rfl ?_ rfl
  rw [show s.regs.pixels = s.imageSize from rfl]
  by_cases h : s.imageSize % 8 = 0
  · rw [if_pos h]; exact (if_neg (fun e => e h)).symm
  · rw [if_neg h]; exact (if_pos h).symm

theorem checkFrame_eq (fop : Byte) (len : Nat) (ack : Bool) (s : State) :
    checkFrame len s = firstFailedCheck s (.frameWr fop len ack) := by
  unfold checkFrame
  rw [thenCheck_if, checkLink_eq]
  show (if len ≤ 19 then _ else _) = if 19 < len then some ErrCode.frameTooLarge else _
  by_cases h : len ≤ 19
  · rw [if_pos h]; exact (if_neg (by omega)).symm
  · rw [if_neg h]; exact (if_pos (by omega)).symm

theorem checkBulk_eq (fop : Byte) (s : State) : checkBulk s = firstFailedCheck s (.bulk fop) := by
  unfold checkBulk
  rw [thenCheck_if, checkLink_eq]
  show _ = if s.cfg.packBytes < s.regs.bulkSrc.toNat + s.regs.bulkLen.toNat then some ErrCode.config else _
  by_cases h : s.regs.bulkSrc.toNat + s.regs.bulkLen.toNat ≤ s.cfg.packBytes
  · rw [if_pos h]; exact (if_neg (by omega)).symm
  · rw [if_neg h]; exact (if_pos (by omega)).symm

/-! ### What acceptance leaves, field by field (R110) -/

@[simp] theorem started_cfg (i : Instr) (s : State) : (s.started i).cfg = s.cfg := by cases i <;> rfl
@[simp] theorem started_regs (i : Instr) (s : State) : (s.started i).regs = s.regs := by cases i <;> rfl
@[simp] theorem started_latched (i : Instr) (s : State) : (s.started i).latched = s.regs := by cases i <;> rfl
@[simp] theorem started_status (i : Instr) (s : State) : (s.started i).status = s.status := by cases i <;> rfl
@[simp] theorem started_error (i : Instr) (s : State) : (s.started i).error = s.error := by cases i <;> rfl
@[simp] theorem started_irqEn (i : Instr) (s : State) : (s.started i).irqEn = s.irqEn := by cases i <;> rfl
@[simp] theorem started_results (i : Instr) (s : State) : (s.started i).results = s.results := by cases i <;> rfl
@[simp] theorem started_retryCnt (i : Instr) (s : State) : (s.started i).retryCnt = s.retryCnt := by cases i <;> rfl
@[simp] theorem started_device (i : Instr) (s : State) : (s.started i).device = s.device := by cases i <;> rfl
@[simp] theorem started_bufs (i : Instr) (s : State) : (s.started i).bufs = s.bufs := by cases i <;> rfl
@[simp] theorem started_tx (i : Instr) (s : State) : (s.started i).tx = s.tx := by cases i <;> rfl
@[simp] theorem started_connectReq (i : Instr) (s : State) : (s.started i).connectReq = s.connectReq := by cases i <;> rfl
@[simp] theorem started_link (i : Instr) (s : State) : (s.started i).link = s.link := by cases i <;> rfl
@[simp] theorem started_busData (i : Instr) (s : State) : (s.started i).busData = s.busData := by cases i <;> rfl
@[simp] theorem started_agenda (i : Instr) (s : State) : (s.started i).agenda = s.agenda := by cases i <;> rfl
@[simp] theorem started_pace (i : Instr) (s : State) : (s.started i).pace = s.pace := by cases i <;> rfl
@[simp] theorem started_cur (i : Instr) (s : State) : (s.started i).engine.cur = i := by cases i <;> rfl
@[simp] theorem started_pixCursor (i : Instr) (s : State) : (s.started i).engine.pixCursor = 0 := by cases i <;> rfl
@[simp] theorem started_chunkCursor (i : Instr) (s : State) : (s.started i).engine.chunkCursor = 0 := by cases i <;> rfl
@[simp] theorem started_sched (i : Instr) (s : State) : (s.started i).engine.sched = .run := by cases i <;> rfl

theorem started_phase (i : Instr) (s : State) :
    (s.started i).engine.phase = if (pixelProgramOf i).isSome then .pixel else .xport := by cases i <;> rfl

@[simp] theorem started_busy (i : Instr) (s : State) : (s.started i).busy = true := by cases i <;> rfl

/-! ### The Engine steps after it (R224) -/

theorem afterEngine_atOnce (s : State) (n : Nat) (h : s.pace = .atOnce) : s.afterEngine n = engineTurn s := by
  simp [State.afterEngine, h]

theorem afterEngine_byTurns (s : State) (n : Nat) (h : s.pace = .byTurns) : s.afterEngine n = engineTurn^[n + 1] s := by
  simp [State.afterEngine, h]

/-! ### Each command as acceptance under its row of R112 -/

/-- Every command is acceptance under R112's row for it, and what passes is `State.started`. -/
theorem exec_eq (i : Instr) (s : State) :
    exec i s = if s.busy then .next (s.raise .busy i.opcode)
      else match firstFailedCheck s i with
        | some code => .next (s.raise code i.opcode)
        | none => .next (s.started i) := by
  have key : ∀ ph check start, exec i s = acceptCommand i ph check start s → check s = firstFailedCheck s i →
      start (s.begin i ph) = s.started i →
      exec i s = if s.busy then .next (s.raise .busy i.opcode)
        else match firstFailedCheck s i with
          | some code => .next (s.raise code i.opcode)
          | none => .next (s.started i) := by
    intro ph check start he hc hs
    rw [he, acceptCommand, hc, hs]
    all_goals rfl
  cases i with
  | nop => exact key .pixel checkNone (fun t => t) rfl rfl rfl
  | luma => exact key .pixel checkGeometry (fun t => t) rfl (checkGeometry_eq s) rfl
  | dthNone => exact key .pixel checkGeometry (fun t => t) rfl (checkGeometry_eq s) rfl
  | dthGray => exact key .pixel checkGray (fun t => t) rfl (checkGray_eq s) rfl
  | dthBayer => exact key .pixel checkGeometry (fun t => t) rfl (checkGeometry_eq s) rfl
  | dthFs => exact key .pixel checkGeometry (fun t => t) rfl (checkGeometry_eq s) rfl
  | dthAtk => exact key .pixel checkGeometry (fun t => t) rfl (checkGeometry_eq s) rfl
  | dthPfs => exact key .pixel checkPaletteDither (fun t => t) rfl (checkPaletteDither_eq s) rfl
  | dthPatk => exact key .pixel checkPaletteDither (fun t => t) rfl (checkPaletteDither_eq s) rfl
  | dth4gray => exact key .pixel checkGeometry (fun t => t) rfl (checkGeometry_eq s) rfl
  | palDist => exact key .pixel checkNone (fun t => t) rfl rfl rfl
  | palNearest => exact key .pixel checkPalette (fun t => t) rfl (checkPalette_eq s) rfl
  | packBw => exact key .pixel (checkPack 1) (fun t => t) rfl ((checkPack_eq 1 s).trans (by rw [one_mul]; rfl)) rfl
  | packRed => exact key .pixel (checkPack 1) (fun t => t) rfl ((checkPack_eq 1 s).trans (by rw [one_mul]; rfl)) rfl
  | pack4gray => exact key .pixel (checkPack 2) (fun t => t) rfl (checkPack_eq 2 s) rfl
  | frameWr fop len ack => exact key .xport (checkFrame len) startFrame rfl (checkFrame_eq fop len ack s) rfl
  | bulk fop => exact key .xport checkBulk startBulk rfl (checkBulk_eq fop s) rfl
  | connect => exact key .xport checkNone (fun t => t) rfl rfl rfl

/-- Everything the delivery of a command can do. -/
theorem exec_cases (i : Instr) (s t : State) (h : exec i s = .next t) :
    (s.busy = true ∧ t = s.raise .busy i.opcode) ∨
    (s.busy = false ∧ ∃ code, firstFailedCheck s i = some code ∧ t = s.raise code i.opcode) ∨
    (s.busy = false ∧ firstFailedCheck s i = none ∧ t = s.started i) := by
  rw [exec_eq] at h
  split at h
  next hb => injection h with h; exact .inl ⟨hb, h.symm⟩
  next hb =>
    have hb : s.busy = false := by simpa using hb
    split at h
    next code hc => injection h with h; exact .inr (.inl ⟨hb, code, hc, h.symm⟩)
    next hc => injection h with h; exact .inr (.inr ⟨hb, hc, h.symm⟩)

/-- Every command answers a next state, in every state. -/
theorem exec_total (i : Instr) (s : State) : ∃ t, exec i s = .next t := by
  rw [exec_eq]
  split
  · exact ⟨_, rfl⟩
  · split <;> exact ⟨_, rfl⟩

end Sys2Proof.Machine
end

