-- ==== Sys2Proof/Laws/Decode.lean ====
section
/-! SUPPORT. The command word and its fields determine one another (spec 30_encoding.md R100, R101). -/

namespace Sys2Proof

theorem assemble_toNat (f : Fields) :
    (assemble f).toNat =
      f.op.toNat + f.fop.toNat * 256 + f.len.toNat * 65536 + f.reservedLow.toNat * 2097152 + f.ack.toNat * 16777216 +
        f.inv.toNat * 33554432 + f.metric.toNat * 67108864 + f.reservedHigh.toNat * 134217728 := by
  have h1 := f.op.isLt
  have h2 := f.fop.isLt
  have h3 := f.len.isLt
  have h4 := f.reservedLow.isLt
  have h5 := f.reservedHigh.isLt
  have h6 := f.ack.toNat_lt
  have h7 := f.inv.toNat_lt
  have h8 := f.metric.toNat_lt
  simp only [assemble, BitVec.toNat_ofNat]
  omega

/-- The digits of a number written in the radices of format C. -/
theorem mixed_radix (a b c d e f g h w : Nat) (ha : a < 256) (hb : b < 256) (hc : c < 32) (hd : d < 8) (he : e < 2)
    (hf : f < 2) (hg : g < 2) (hh : h < 32)
    (hw : w = a + b * 256 + c * 65536 + d * 2097152 + e * 16777216 + f * 33554432 + g * 67108864 + h * 134217728) :
    w % 256 = a ∧ w / 256 % 256 = b ∧ w / 65536 % 32 = c ∧ w / 2097152 % 8 = d ∧ w / 16777216 % 2 = e ∧
      w / 33554432 % 2 = f ∧ w / 67108864 % 2 = g ∧ w / 134217728 % 32 = h := by
  refine ⟨?_, ?_, ?_, ?_, ?_, ?_, ?_, ?_⟩ <;> omega

theorem fieldsOf_eq (w : Word) :
    fieldsOf w =
      { op := BitVec.ofNat 8 w.toNat
        fop := BitVec.ofNat 8 (w.toNat / 256)
        len := BitVec.ofNat 5 (w.toNat / 65536)
        reservedLow := BitVec.ofNat 3 (w.toNat / 2097152)
        ack := decide (w.toNat / 16777216 % 2 = 1)
        inv := decide (w.toNat / 33554432 % 2 = 1)
        metric := decide (w.toNat / 67108864 % 2 = 1)
        reservedHigh := BitVec.ofNat 5 (w.toNat / 134217728) } := by
  simp only [fieldsOf, Fields.mk.injEq, ← BitVec.toNat_inj, BitVec.extractLsb'_toNat, BitVec.toNat_ofNat,
    Nat.shiftRight_eq_div_pow, BitVec.getLsbD, Nat.testBit_eq_decide_div_mod_eq]
  norm_num

theorem fieldsOf_assemble (f : Fields) : fieldsOf (assemble f) = f := by
  obtain ⟨h1, h2, h3, h4, h5, h6, h7, h8⟩ := mixed_radix _ _ _ _ _ _ _ _ _ f.op.isLt f.fop.isLt f.len.isLt
    f.reservedLow.isLt f.ack.toNat_lt f.inv.toNat_lt f.metric.toNat_lt f.reservedHigh.isLt (assemble_toNat f)
  rw [fieldsOf_eq]
  obtain ⟨op, fop, len, low, ack, inv, metric, high⟩ := f
  simp only [Fields.mk.injEq, ← BitVec.toNat_inj, BitVec.toNat_ofNat]
  refine ⟨h1, h2, h3, h4, ?_, ?_, ?_, h8⟩
  · rw [h5]; cases ack <;> rfl
  · rw [h6]; cases inv <;> rfl
  · rw [h7]; cases metric <;> rfl

theorem assemble_fieldsOf (w : Word) : assemble (fieldsOf w) = w := by
  have bit : ∀ n, (decide (n % 2 = 1)).toNat = n % 2 := fun n => by
    rcases Nat.mod_two_eq_zero_or_one n with h | h <;> simp [h]
  have := w.isLt
  rw [← BitVec.toNat_inj, assemble_toNat, fieldsOf_eq]
  simp only [BitVec.toNat_ofNat, bit]
  omega

theorem permitted_eq_ok (f : Fields) (p : Permits) (i j : Instr) :
    permitted f p i = .ok j ↔ f.within p = true ∧ i = j := by
  unfold permitted
  split <;> simp_all

theorem metricOfBit_bitOfMetric (m : Metric) : metricOfBit (bitOfMetric m) = m := by cases m <;> rfl

theorem bitOfMetric_metricOfBit (b : Bool) : bitOfMetric (metricOfBit b) = b := by cases b <;> rfl

end Sys2Proof
end

