-- ==== Sys2Proof/Laws/Errors.lean ====
section
/-! SUPPORT. What taking an error and returning from one leave (spec 60_exceptions.md R280, R284, R285; 45_transport.md R237,
R252), each operation said once as one record. -/

namespace Sys2Proof.Machine

/-- R285, both cases. -/
theorem State.reconnect_cases (s : State) :
    (s.retryCnt.toNat < maxRetry ∧ s.reconnect = { s with retryCnt := s.retryCnt + 1, connectReq := true }) ∨
    (maxRetry ≤ s.retryCnt.toNat ∧ s.reconnect = { s with status := { s.status with permFail := true } }) := by
  unfold State.reconnect
  by_cases h : s.retryCnt.toNat < maxRetry
  · exact .inl ⟨h, if_pos h⟩
  · exact .inr ⟨not_lt.1 h, if_neg h⟩

/-- An abort with budget left (R237, R280, R285). -/
theorem State.abortTransport_retry (code : ErrCode) (s : State) (h : s.retryCnt.toNat < maxRetry) :
    s.abortTransport code = { s with
      tx := { s.tx with queue := [], ackPending := false }
      retryCnt := s.retryCnt + 1
      connectReq := true
      error := { code := code, op := s.curOp }
      status := { s.status with err := true }
      engine := { s.engine with phase := .idle } } := by
  have h' : s.flushTx.retryCnt.toNat < maxRetry := h
  unfold State.abortTransport State.reconnect
  rw [if_pos h']
  rfl

/-- An abort with the budget spent (R237, R280, R285). -/
theorem State.abortTransport_terminal (code : ErrCode) (s : State) (h : maxRetry ≤ s.retryCnt.toNat) :
    s.abortTransport code = { s with
      tx := { s.tx with queue := [], ackPending := false }
      error := { code := code, op := s.curOp }
      status := { s.status with err := true, permFail := true }
      engine := { s.engine with phase := .idle } } := by
  have h' : ¬s.flushTx.retryCnt.toNat < maxRetry := not_lt.2 h
  unfold State.abortTransport State.reconnect
  rw [if_neg h']
  rfl

/-- R252. -/
theorem State.abortDisconnected_eq (s : State) :
    s.abortDisconnected = { s with
      tx := { s.tx with queue := [], ackPending := false }
      progress := { s.progress with bulkIdx := 0, bulkTotal := 0 }
      error := { code := .disconnected, op := s.curOp }
      status := { s.status with err := true }
      engine := { s.engine with phase := .idle } } := rfl

/-- After any abort the block is idle, with TXQ empty and nothing pending. -/
theorem State.abortTransport_idle (code : ErrCode) (s : State) :
    (s.abortTransport code).busy = false ∧ (s.abortTransport code).tx.queue = [] ∧
    (s.abortTransport code).tx.ackPending = false ∧ (s.abortTransport code).status.err = true ∧
    (s.abortTransport code).error = { code := code, op := s.curOp } := by
  rcases Nat.lt_or_ge s.retryCnt.toNat maxRetry with h | h
  · rw [State.abortTransport_retry code s h]; exact ⟨rfl, rfl, rfl, rfl, rfl⟩
  · rw [State.abortTransport_terminal code s h]; exact ⟨rfl, rfl, rfl, rfl, rfl⟩

end Sys2Proof.Machine
end

