-- ==== Sys2Proof/Laws/Memory.lean ====
section
/-! SUPPORT. What the memory operations do: a read after a write, the bytes a write leaves alone, and the canonical form,
which every write keeps. -/

namespace Sys2Proof.Machine

/-! ### One cell -/

theorem memCell_memPut (m : Memory) (a b : Nat) (v : Byte) :
    memCell (memPut m a v) b = if b = a then some v else memCell m b := by
  induction m with
  | nil => simp [memPut, memCell]
  | cons c rest ih =>
    obtain ⟨d, w⟩ := c
    unfold memPut
    by_cases h1 : a < d
    · simp only [h1, if_true, memCell]
    · by_cases h2 : a = d
      · subst h2
        simp only [lt_irrefl, if_false, if_true, memCell]
        by_cases h3 : b = a <;> simp [h3]
      · simp only [h1, h2, if_false, memCell, ih]
        by_cases h3 : b = d
        · have : b ≠ a := fun h => h2 (h ▸ h3)
          rw [if_pos h3, if_neg this, if_pos h3]
        · simp [h3]

theorem memByte_memPut (sp : Space) (m : Memory) (a b : Nat) (v : Byte) :
    memByte sp (memPut m a v) b = if b = a then v else memByte sp m b := by
  unfold memByte
  rw [memCell_memPut]
  by_cases h : b = a <;> simp [h]

@[simp] theorem memByte_memPut_same (sp : Space) (m : Memory) (a : Nat) (v : Byte) :
    memByte sp (memPut m a v) a = v := by
  rw [memByte_memPut, if_pos rfl]

theorem memByte_memPut_other (sp : Space) (m : Memory) (a b : Nat) (v : Byte) (h : b ≠ a) :
    memByte sp (memPut m a v) b = memByte sp m b := by
  rw [memByte_memPut, if_neg h]

@[simp] theorem memByte_nil (sp : Space) (a : Nat) : memByte sp [] a = Config.powerOnByte sp a := rfl

/-! ### The canonical form -/

theorem mem_memPut (m : Memory) (a : Nat) (v : Byte) (c : Host.Cell) :
    c ∈ memPut m a v → c.1 = a ∨ c ∈ m := by
  induction m with
  | nil => intro h; simp [memPut] at h; simp [h]
  | cons d rest ih =>
    obtain ⟨d, w⟩ := d
    unfold memPut
    split
    · intro h; rcases List.mem_cons.1 h with h | h <;> simp_all
    · split
      · intro h; rcases List.mem_cons.1 h with h | h <;> simp_all
      · intro h
        rcases List.mem_cons.1 h with h | h
        · simp_all
        · rcases ih h with h | h <;> simp_all

theorem memPut_wf (m : Memory) (a : Nat) (v : Byte) (h : Memory.wf m) : Memory.wf (memPut m a v) := by
  induction m with
  | nil => simp [memPut]
  | cons d rest ih =>
    obtain ⟨d, w⟩ := d
    obtain ⟨h1, h2⟩ := List.pairwise_cons.1 h
    unfold memPut
    split
    next h3 =>
      refine List.pairwise_cons.2 ⟨fun c hc => ?_, h⟩
      rcases List.mem_cons.1 hc with rfl | hc
      · exact h3
      · exact lt_trans h3 (h1 c hc)
    next h3 =>
      split
      next h4 => subst h4; exact List.pairwise_cons.2 ⟨h1, h2⟩
      next h4 =>
        refine List.pairwise_cons.2 ⟨fun c hc => ?_, ih h2⟩
        rcases mem_memPut _ _ _ _ hc with hc | hc
        · simp only [hc]; omega
        · exact h1 c hc

theorem memPut_below (m : Memory) (a n : Nat) (v : Byte) (ha : a < n) (h : ∀ c ∈ m, c.1 < n) :
    ∀ c ∈ memPut m a v, c.1 < n := by
  intro c hc
  rcases mem_memPut _ _ _ _ hc with hc | hc
  · omega
  · exact h c hc

/-! ### Several bytes (R9, R72) -/

theorem memWrite_wf (m : Memory) (a n v : Nat) (h : Memory.wf m) : Memory.wf (memWrite m a n v) := by
  induction n generalizing m a v with
  | zero => exact h
  | succ n ih => exact ih _ _ _ (memPut_wf _ _ _ h)

theorem memWrite_below (m : Memory) (a n v k : Nat) (ha : a + n ≤ k) (h : ∀ c ∈ m, c.1 < k) :
    ∀ c ∈ memWrite m a n v, c.1 < k := by
  induction n generalizing m a v with
  | zero => exact h
  | succ n ih => exact ih _ _ _ (by omega) (memPut_below _ _ _ _ (by omega) h)

theorem memByte_memWrite_other (sp : Space) (m : Memory) (a n v b : Nat) (h : b < a ∨ a + n ≤ b) :
    memByte sp (memWrite m a n v) b = memByte sp m b := by
  induction n generalizing m a v with
  | zero => rfl
  | succ n ih =>
    rw [memWrite, ih _ _ _ (by omega), memByte_memPut_other _ _ _ _ _ (by omega)]

theorem memRead_memWrite (sp : Space) (m : Memory) (a n v : Nat) :
    memRead sp (memWrite m a n v) a n = v % 2 ^ (8 * n) := by
  induction n generalizing m a v with
  | zero => simp [memRead, Nat.mod_one]
  | succ n ih =>
    rw [memRead, memWrite, ih, memByte_memWrite_other _ _ _ _ _ _ (by omega), memByte_memPut_same]
    have e : 2 ^ (8 * (n + 1)) = 256 * 2 ^ (8 * n) := by rw [Nat.mul_add, pow_add]; ring
    rw [e, Nat.mod_mul, BitVec.toNat_ofNat]

/-! ### Pixels (R9) -/

theorem pixAddr_inj (i j : Nat) (c d : Channel) : pixAddr i c = pixAddr j d ↔ i = j ∧ c = d := by
  constructor
  · intro h
    cases c <;> cases d <;> simp [pixAddr, channelOffset] at h ⊢ <;> omega
  · rintro ⟨rfl, rfl⟩; rfl

theorem pix_setPix (m : Memory) (i j : Nat) (c d : Channel) (v : Int) :
    pix (setPix m i c v) j d = if j = i ∧ d = c then sat8 v else pix m j d := by
  unfold pix setPix
  rw [memByte_memPut]
  by_cases h : j = i ∧ d = c
  · rw [if_pos h, if_pos ((pixAddr_inj _ _ _ _).2 h)]
  · rw [if_neg h, if_neg (fun e => h ((pixAddr_inj _ _ _ _).1 e))]

theorem pix_setGray (m : Memory) (i j : Nat) (d : Channel) (v : Int) :
    pix (setGray m i v) j d = if j = i ∧ d ≠ .A then sat8 v else pix m j d := by
  unfold setGray
  simp only [pix_setPix]
  by_cases h : j = i <;> cases d <;> simp [h]

theorem setPix_wf (m : Memory) (i : Nat) (c : Channel) (v : Int) (h : Memory.wf m) : Memory.wf (setPix m i c v) :=
  memPut_wf _ _ _ h

theorem setGray_wf (m : Memory) (i : Nat) (v : Int) (h : Memory.wf m) : Memory.wf (setGray m i v) :=
  setPix_wf _ _ _ _ (setPix_wf _ _ _ _ (setPix_wf _ _ _ _ h))

theorem pixAddr_lt (i n : Nat) (c : Channel) (h : i < n) : pixAddr i c < 4 * n := by
  cases c <;> simp [pixAddr, channelOffset] <;> omega

/-! ### Saturation (R8) -/

theorem sat8_toNat (v : Int) : ((sat8 v).toNat : Int) = min 255 (max 0 v) := by
  unfold sat8
  rw [BitVec.toNat_ofNat]
  omega

@[simp] theorem sat8_byte (b : Byte) : sat8 (b.toNat : Int) = b := by
  have := b.isLt
  rw [← BitVec.toNat_inj]
  have := sat8_toNat b.toNat
  omega

theorem sat8_nat (n : Nat) (h : n ≤ 255) : sat8 (n : Int) = BitVec.ofNat 8 n := by
  rw [← BitVec.toNat_inj]
  have := sat8_toNat n
  rw [BitVec.toNat_ofNat]
  omega

end Sys2Proof.Machine
end

