-- ==== Sys2Proof/Laws/PerInstr.lean ====
section
/-! SUPPORT. What holds of every instruction's word: its OP byte is the instruction's opcode (spec 30_encoding.md R103). -/

namespace Sys2Proof.Laws.EncodedOpcode

def Statement (i : Instr) : Prop := (fieldsOf (encode i)).op = i.opcode

/-- The fields of an encoded instruction are the fields it was given. -/
theorem of_fields (i : Instr) (h : (fieldsOfInstr i).op = i.opcode) : Statement i := by
  unfold Statement encode
  rw [fieldsOf_assemble, h]

theorem nop : Statement .nop := of_fields _ rfl
theorem luma : Statement .luma := of_fields _ rfl
theorem dthNone : Statement .dthNone := of_fields _ rfl
theorem dthGray : Statement .dthGray := of_fields _ rfl
theorem dthBayer : Statement .dthBayer := of_fields _ rfl
theorem dthFs : Statement .dthFs := of_fields _ rfl
theorem dthAtk : Statement .dthAtk := of_fields _ rfl
theorem dthPfs : Statement .dthPfs := of_fields _ rfl
theorem dthPatk : Statement .dthPatk := of_fields _ rfl
theorem dth4gray : Statement .dth4gray := of_fields _ rfl
theorem palDist (metric : Metric) : Statement (.palDist metric) := of_fields _ rfl
theorem palNearest (metric : Metric) : Statement (.palNearest metric) := of_fields _ rfl
theorem packBw (inv : Bool) : Statement (.packBw inv) := of_fields _ rfl
theorem packRed (inv : Bool) : Statement (.packRed inv) := of_fields _ rfl
theorem pack4gray (inv : Bool) : Statement (.pack4gray inv) := of_fields _ rfl
theorem frameWr (fop : Byte) (len : Nat) (ack : Bool) : Statement (.frameWr fop len ack) := of_fields _ rfl
theorem bulk (fop : Byte) : Statement (.bulk fop) := of_fields _ rfl
theorem connect : Statement .connect := of_fields _ rfl

end Sys2Proof.Laws.EncodedOpcode
end

