-- ==== Sys2Proof/Laws/Pixel.lean ====
section
/-! SUPPORT. What the pixel operations keep: the canonical form of PIXMEM, its bounds, and alpha (spec 42_dither.md R140 to
R155, 20_memory.md R81). -/

namespace Sys2Proof.Machine

/-- A property that one step of a fold keeps holds after the fold. -/
theorem foldl_keeps {α β : Type} (p : β → Prop) (f : β → α → β) (l : List α) (b : β) (hb : p b)
    (h : ∀ b a, a ∈ l → p b → p (f b a)) : p (l.foldl f b) := by
  induction l generalizing b with
  | nil => exact hb
  | cons a l ih =>
    exact ih _ (h b a List.mem_cons_self hb) fun b c hc hp => h b c (List.mem_cons_of_mem _ hc) hp

theorem diffuseInto_wf (m : Memory) (j : Nat) (w : Int) (errs : List (Channel × Int)) (h : Memory.wf m) :
    Memory.wf (diffuseInto m j w errs) :=
  foldl_keeps Memory.wf _ errs m h fun _ _ _ hm => setPix_wf _ _ _ _ hm

theorem diffuse_wf (r : OperandRegs) (nbs : List Neighbour) (errs : List (Channel × Int)) (i : Nat) (m : Memory)
    (h : Memory.wf m) : Memory.wf (diffuse r nbs errs i m) := by
  refine foldl_keeps Memory.wf _ nbs m h fun m nb _ hm => ?_
  cases target r i nb with
  | none => exact hm
  | some j => exact diffuseInto_wf _ _ _ _ hm

theorem grayEd_wf (r : OperandRegs) (cut : Nat) (rate : Int) (nbs : List Neighbour) (m : Memory) (i : Nat)
    (h : Memory.wf m) : Memory.wf (grayEd r cut rate nbs m i) :=
  setPix_wf _ _ _ _ (setPix_wf _ _ _ _ (diffuse_wf _ _ _ _ _ (setPix_wf _ _ _ _ h)))

theorem palEd_wf (r : OperandRegs) (rate : Int) (nbs : List Neighbour) (m : Memory) (i : Nat) (h : Memory.wf m) :
    Memory.wf (palEd r rate nbs m i) :=
  diffuse_wf _ _ _ _ _ (setPix_wf _ _ _ _ (setPix_wf _ _ _ _ (setPix_wf _ _ _ _ h)))

/-- A diffusion of R, G and B errors leaves every alpha. -/
theorem diffuse_alpha (r : OperandRegs) (nbs : List Neighbour) (errs : List (Channel × Int)) (i k : Nat) (m : Memory)
    (he : ∀ e ∈ errs, e.1 ≠ .A) : pix (diffuse r nbs errs i m) k .A = pix m k .A := by
  refine foldl_keeps (fun n => pix n k .A = pix m k .A) _ nbs m rfl fun n nb _ hn => ?_
  cases target r i nb with
  | none => exact hn
  | some j =>
    refine foldl_keeps (fun n => pix n k .A = pix m k .A) _ errs n hn fun n e hm hn => ?_
    rw [pix_setPix, if_neg fun h => he e hm h.2.symm]
    exact hn

theorem setPix_below (m : Memory) (i n : Nat) (c : Channel) (v : Int) (hi : i < n) (h : ∀ x ∈ m, x.1 < 4 * n) :
    ∀ x ∈ setPix m i c v, x.1 < 4 * n :=
  memPut_below _ _ _ _ (pixAddr_lt i n c hi) h

/-- The gray write of a pixel of the image stays within the image's bytes. -/
theorem setGray_below (m : Memory) (i n : Nat) (v : Int) (hi : i < n) (h : ∀ x ∈ m, x.1 < 4 * n) :
    ∀ x ∈ setGray m i v, x.1 < 4 * n :=
  setPix_below _ _ _ _ _ hi (setPix_below _ _ _ _ _ hi (setPix_below _ _ _ _ _ hi h))

/-- R201: bit `7 - k` of a packed byte is the bit of pixel `8b + k`. -/
theorem packByte_bit (f : Nat → Bool) (b k : Nat) (hk : k < 8) : (packByte f b).getLsbD (7 - k) = f (8 * b + k) := by
  have key : ∀ b0 b1 b2 b3 b4 b5 b6 b7 : Bool, ∀ j : Fin 8,
      (BitVec.ofNat 8 (b0.toNat * 128 + (b1.toNat * 64 + (b2.toNat * 32 + (b3.toNat * 16 + (b4.toNat * 8 +
        (b5.toNat * 4 + (b6.toNat * 2 + b7.toNat)))))))).getLsbD (7 - j.val) =
        [b0, b1, b2, b3, b4, b5, b6, b7].getD j.val false := by decide
  have := key (f (8 * b)) (f (8 * b + 1)) (f (8 * b + 2)) (f (8 * b + 3)) (f (8 * b + 4)) (f (8 * b + 5)) (f (8 * b + 6))
    (f (8 * b + 7)) ⟨k, hk⟩
  simp only [packByte, List.range, List.range.loop, List.map, List.sum_cons, List.sum_nil]
  norm_num at this ⊢
  rw [this]
  interval_cases k <;> rfl

end Sys2Proof.Machine
end

