-- ==== Sys2Proof/Laws/Step.lean ====
section
/-! SUPPORT. What each agent's step can do (spec 45_transport.md R224): the whole step, the host's accesses, the Engine's loop
and sessions, the Link's events and the Clock, each said once. -/

namespace Sys2Proof.Machine

/-! ### The step -/

theorem step_of_agenda (s : State) (t : Turn) (rest : List Turn) (h : s.agenda = t :: rest) :
    step s = takeTurn t { s with agenda := rest } := by
  unfold step
  rw [h]

theorem step_of_empty (s : State) (h : s.agenda = []) : step s = .next (engineTurn s) := by
  unfold step
  rw [h]

/-! ### The host -/

/-- Where a legal access lands. -/
theorem locate_cases (c : Config) (width : Width) (addr : Word) (p : Place) (h : locate c width addr = some p) :
    addr.toNat % widthBytes width = 0 ∧
    ((width = .w32 ∧ addr.toNat + 4 ≤ 0x1000 ∧ p = .csr addr.toNat) ∨
     (packBase ≤ addr.toNat ∧ addr.toNat + widthBytes width ≤ packBase + c.packBytes ∧
       p = .mem .packmem (addr.toNat - packBase)) ∨
     (pixBase ≤ addr.toNat ∧ addr.toNat + widthBytes width ≤ pixBase + 4 * c.pixMax ∧
       p = .mem .pixmem (addr.toNat - pixBase))) := by
  unfold locate at h
  simp only at h
  split at h
  · cases h
  next h0 =>
    refine ⟨not_not.1 h0, ?_⟩
    split at h
    next h1 =>
      split at h
      next hw => subst hw; injection h with h; exact .inl ⟨rfl, h1, h.symm⟩
      · cases h
    · split at h
      next h2 => injection h with h; exact .inr (.inl ⟨h2.1, h2.2, h.symm⟩)
      · split at h
        next h3 => injection h with h; exact .inr (.inr ⟨h3.1, h3.2, h.symm⟩)
        · cases h

/-- A legal access beyond the CSR region lands in a memory. -/
theorem locate_of_legal (c : Config) (width : Width) (addr : Word) (h : 0x1000 ≤ addr.toNat)
    (hl : accessLegal c width addr.toNat) : ∃ sp off, locate c width addr = some (.mem sp off) := by
  obtain ⟨h0, h1⟩ := hl
  have hn : ¬(addr.toNat + widthBytes width ≤ csrSize) := by cases width <;> simp [csrSize, widthBytes] <;> omega
  unfold locate
  simp only [h0, ne_eq, not_true, if_false]
  rw [if_neg hn]
  rcases h1 with ⟨rfl, h1⟩ | h1 | h1
  · omega
  · split
    · exact ⟨_, _, rfl⟩
    next hc => exact absurd h1 hc
  · split
    · exact ⟨_, _, rfl⟩
    · split
      · exact ⟨_, _, rfl⟩
      next hc => exact absurd h1 hc

/-- An aligned word access within the CSR region lands on that CSR. -/
theorem locate_of_csr (c : Config) (addr : Word) (h : addr.toNat + 4 ≤ 0x1000) (h4 : addr.toNat % 4 = 0) :
    locate c .w32 addr = some (.csr addr.toNat) := by
  simp [locate, widthBytes, h4, csrSize, h]

/-- Everything a host read can do. -/
theorem hostRead_cases (width : Width) (addr : Word) (s t : State) (h : hostRead width addr s = .next t) :
    (∃ off, locate s.cfg width addr = some (.csr off) ∧ t = { s with busData := csrRead off s }) ∨
    (∃ sp off, locate s.cfg width addr = some (.mem sp off) ∧
      ((s.busy = true ∧ t = { s.hazard with busData := 0 }) ∨
       (s.busy = false ∧ t = { s with busData := toWord (s.bufs.readAt sp off (widthBytes width)) }))) := by
  unfold hostRead at h
  split at h
  · cases h
  next off hl => injection h with h; exact .inl ⟨off, hl, h.symm⟩
  next sp off hl =>
    refine .inr ⟨sp, off, hl, ?_⟩
    split at h
    next hb => injection h with h; exact .inl ⟨hb, h.symm⟩
    next hb => injection h with h; exact .inr ⟨by simpa using hb, h.symm⟩

/-- Everything a host write can do. -/
theorem hostWrite_cases (width : Width) (addr data : Word) (s t : State) (h : hostWrite width addr data s = .next t) :
    (locate s.cfg width addr = some (.csr 0x014) ∧ acceptWord data s = .next t) ∨
    (∃ off, off ≠ 0x014 ∧ locate s.cfg width addr = some (.csr off) ∧ t = csrWrite off data s) ∨
    (∃ sp off, locate s.cfg width addr = some (.mem sp off) ∧
      ((s.busy = true ∧ t = s.hazard) ∨
       (s.busy = false ∧ t = { s with bufs := s.bufs.writeAt sp off (widthBytes width) data.toNat }))) := by
  unfold hostWrite at h
  split at h
  · cases h
  next off hl =>
    split at h
    next ho => subst ho; exact .inl ⟨hl, h⟩
    next ho => injection h with h; exact .inr (.inl ⟨off, ho, hl, h.symm⟩)
  next sp off hl =>
    refine .inr (.inr ⟨sp, off, hl, ?_⟩)
    split at h
    next hb => injection h with h; exact .inl ⟨hb, h.symm⟩
    next hb => injection h with h; exact .inr ⟨by simpa using hb, h.symm⟩

/-- A write of CMD at its address is the delivery of the word. -/
theorem hostWrite_cmd (w : Word) (s : State) : hostWrite .w32 0x014 w s = acceptWord w s := rfl

theorem acceptWord_ok (w : Word) (i : Instr) (s : State) (h : decode w = .ok i) : acceptWord w s = exec i s := by
  unfold acceptWord
  rw [h]

theorem acceptWord_error (w : Word) (e : Illegal) (s : State) (h : decode w = .error e) :
    acceptWord w s = .next (s.raise (if s.busy then .busy else .illegalCmd) (fieldsOf w).op) := by
  unfold acceptWord
  rw [h]

/-! ### The Engine -/

theorem PixelProgram.loop_zero (p : PixelProgram) (c : Config) (r : OperandRegs) (start : Nat) (b : Buffers) :
    p.loop c r start 0 b = b := rfl

theorem PixelProgram.loop_succ (p : PixelProgram) (c : Config) (r : OperandRegs) (start n : Nat) (b : Buffers) :
    p.loop c r start (n + 1) b = p.loop c r (start + 1) n (p.body c r start b) := by
  unfold PixelProgram.loop
  rw [List.range'_succ, List.foldl_cons]

/-- From 0 the loop is the fold over all indices. -/
theorem PixelProgram.loop_from_zero (p : PixelProgram) (c : Config) (r : OperandRegs) (n : Nat) (b : Buffers) :
    p.loop c r 0 n b = (List.range n).foldl (fun b i => p.body c r i b) b := by
  unfold PixelProgram.loop
  rw [List.range_eq_range']

theorem engineTurn_idle (s : State) (h : s.engine.phase = .idle) : engineTurn s = s := by
  unfold engineTurn
  rw [h]

theorem engineTurn_pixel (s : State) (p : PixelProgram) (h : s.engine.phase = .pixel)
    (hp : pixelProgramOf s.engine.cur = some p) : engineTurn s = p.turn s := by
  unfold engineTurn
  rw [h]
  simp only [hp]

theorem engineTurn_connect (s : State) (h : s.engine.phase = .xport) (hc : s.engine.cur = .connect) :
    engineTurn s = connectTurn s := by
  unfold engineTurn
  rw [h]
  simp only [hc]

theorem engineTurn_session (s : State) (p : SessionProgram) (h : s.engine.phase = .xport)
    (hp : sessionProgramOf s.engine.cur = some p) : engineTurn s = p.turn s := by
  unfold engineTurn
  rw [h]
  cases hc : s.engine.cur <;> rw [hc] at hp <;> simp_all [sessionProgramOf]

/-- Everything one Engine step can be. -/
theorem engineTurn_cases (s : State) :
    engineTurn s = s ∨
    (s.engine.phase = .pixel ∧ ∃ p, pixelProgramOf s.engine.cur = some p ∧ engineTurn s = p.turn s) ∨
    (s.engine.phase = .xport ∧ s.engine.cur = .connect ∧ engineTurn s = connectTurn s) ∨
    (s.engine.phase = .xport ∧ ∃ p, sessionProgramOf s.engine.cur = some p ∧ engineTurn s = p.turn s) := by
  cases hph : s.engine.phase with
  | idle => exact .inl (engineTurn_idle s hph)
  | pixel =>
    cases hp : pixelProgramOf s.engine.cur with
    | some p => exact .inr (.inl ⟨rfl, p, rfl, engineTurn_pixel s p hph hp⟩)
    | none => left; unfold engineTurn; rw [hph]; simp only [hp]
  | xport =>
    cases hp : sessionProgramOf s.engine.cur with
    | some p => exact .inr (.inr (.inr ⟨rfl, p, rfl, engineTurn_session s p hph hp⟩))
    | none =>
      by_cases hc : s.engine.cur = .connect
      · exact .inr (.inr (.inl ⟨rfl, hc, engineTurn_connect s hph hc⟩))
      · left
        unfold engineTurn
        rw [hph]
        cases he : s.engine.cur <;> simp_all [sessionProgramOf]

theorem PixelProgram.turn_atOnce (p : PixelProgram) (s : State) (h : s.pace = .atOnce) : p.turn s = p.runWhole s := by
  unfold PixelProgram.turn
  rw [h]

theorem PixelProgram.turn_byTurns (p : PixelProgram) (s : State) (h : s.pace = .byTurns) : p.turn s = p.runIndex s := by
  unfold PixelProgram.turn
  rw [h]

/-- Everything one step of a PIXEL command by turns can do. -/
theorem PixelProgram.runIndex_cases (p : PixelProgram) (s : State) :
    (s.engine.pixCursor < p.count s.latched ∧ p.runIndex s = { s with
      bufs := p.body s.cfg s.latched s.engine.pixCursor s.bufs
      engine := { s.engine with pixCursor := s.engine.pixCursor + 1 } }) ∨
    (p.count s.latched ≤ s.engine.pixCursor ∧ p.runIndex s = p.last s) := by
  unfold PixelProgram.runIndex
  by_cases h : s.engine.pixCursor < p.count s.latched
  · exact .inl ⟨h, if_pos h⟩
  · exact .inr ⟨not_lt.1 h, if_neg h⟩

/-- Everything one step of a session can do: append a frame, wait, return from a wait, complete, or stay. -/
theorem SessionProgram.turn_cases (p : SessionProgram) (s : State) :
    ((s.engine.sched = .run ∨ s.engine.sched = .wSpace) ∧ s.txqHasSpace = true ∧ p.turn s = p.append s) ∨
    (s.engine.sched = .run ∧ s.txqHasSpace = false ∧ p.turn s = s.enterWait .wSpace) ∨
    (s.engine.sched = .wAck ∧ s.tx.ackPending = false ∧ p.turn s = p.emitReturn s) ∨
    (s.engine.sched = .wDrain ∧ s.drained = true ∧ p.turn s = s.complete) ∨
    (((s.engine.sched = .wSpace ∧ s.txqHasSpace = false) ∨ (s.engine.sched = .wAck ∧ s.tx.ackPending = true) ∨
      (s.engine.sched = .wDrain ∧ s.drained = false)) ∧ p.turn s = s) := by
  unfold SessionProgram.turn
  cases h : s.engine.sched with
  | run => cases h1 : s.txqHasSpace <;> simp
  | wSpace => cases h1 : s.txqHasSpace <;> simp
  | wAck => cases h1 : s.tx.ackPending <;> simp
  | wDrain => cases h1 : s.drained <;> simp

/-- What emit's return leaves alone. -/
theorem SessionProgram.emitReturn_frame (p : SessionProgram) (s : State) :
    (p.emitReturn s).cfg = s.cfg ∧ (p.emitReturn s).regs = s.regs ∧ (p.emitReturn s).latched = s.latched ∧
    (p.emitReturn s).bufs = s.bufs ∧ (p.emitReturn s).tx.queue = s.tx.queue ∧
    (p.emitReturn s).tx.ackPending = s.tx.ackPending ∧ (p.emitReturn s).engine.cur = s.engine.cur ∧
    (p.emitReturn s).engine.phase = s.engine.phase ∧ (p.emitReturn s).error = s.error ∧
    (p.emitReturn s).status.err = s.status.err ∧ (p.emitReturn s).status.permFail = s.status.permFail ∧
    (p.emitReturn s).retryCnt = s.retryCnt ∧ (p.emitReturn s).link = s.link := by
  unfold SessionProgram.emitReturn
  by_cases h1 : p.progress s.engine.chunkCursor = true <;>
    by_cases h2 : s.engine.chunkCursor + 1 ≤ p.lastFrame s.latched <;> simp [h1, h2, State.enterWait]

/-! ### The Link and the Clock -/

/-- What an abort of a session leaves alone. -/
theorem State.abortTransport_frame (code : ErrCode) (s : State) :
    (s.abortTransport code).cfg = s.cfg ∧ (s.abortTransport code).latched = s.latched ∧
    (s.abortTransport code).bufs = s.bufs ∧ (s.abortTransport code).engine.cur = s.engine.cur := by
  unfold State.abortTransport State.reconnect
  split <;> exact ⟨rfl, rfl, rfl, rfl⟩

/-- What no event of the Link touches. -/
theorem linkStep_frame (e : LinkEvent) (s : State) :
    (linkStep e s).cfg = s.cfg ∧ (linkStep e s).latched = s.latched ∧ (linkStep e s).bufs = s.bufs ∧
    (linkStep e s).engine.cur = s.engine.cur := by
  have leave : ∀ t : State, t.leaveAckWait.cfg = t.cfg ∧ t.leaveAckWait.latched = t.latched ∧
      t.leaveAckWait.bufs = t.bufs ∧ t.leaveAckWait.engine.cur = t.engine.cur := by
    intro t
    unfold State.leaveAckWait
    split
    · split
      next p _ =>
        obtain ⟨h1, _, h2, h3, _, _, h4, _⟩ := p.emitReturn_frame t
        exact ⟨h1, h2, h3, h4⟩
      · exact ⟨rfl, rfl, rfl, rfl⟩
    · exact ⟨rfl, rfl, rfl, rfl⟩
  cases e with
  | takeOk =>
    simp only [linkStep, linkTakeOk]
    split
    · exact ⟨rfl, rfl, rfl, rfl⟩
    · split <;> exact ⟨rfl, rfl, rfl, rfl⟩
  | takeFail =>
    simp only [linkStep, linkTakeFail]
    split
    · exact ⟨rfl, rfl, rfl, rfl⟩
    · split
      · exact ⟨rfl, rfl, rfl, rfl⟩
      · split
        · exact State.abortTransport_frame _ _
        · exact ⟨rfl, rfl, rfl, rfl⟩
  | respOk =>
    simp only [linkStep, linkRespOk]
    split
    · split
      · exact leave _
      · exact ⟨rfl, rfl, rfl, rfl⟩
    · exact ⟨rfl, rfl, rfl, rfl⟩
  | respFail =>
    simp only [linkStep, linkRespFail]
    split
    · split
      · exact State.abortTransport_frame _ _
      · exact ⟨rfl, rfl, rfl, rfl⟩
    · exact ⟨rfl, rfl, rfl, rfl⟩
  | down =>
    simp only [linkStep, linkDown]
    split
    · split <;> exact ⟨rfl, rfl, rfl, rfl⟩
    · exact ⟨rfl, rfl, rfl, rfl⟩
  | up => simp only [linkStep, linkUp]; split <;> exact ⟨rfl, rfl, rfl, rfl⟩
  | notify m => simp only [linkStep, linkNotify]; split <;> exact ⟨rfl, rfl, rfl, rfl⟩

/-- Only a running session is held in a wait. -/
theorem State.sessionRunning_of_waiting (s : State) (h : s.waiting = true) : s.sessionRunning = true := by
  simp only [State.waiting, Bool.and_eq_true] at h
  exact h.1

/-- R235: the saturating count, without the detour over natural numbers. -/
theorem elapsed_count (e : Word) :
    toWord (min (e.toNat + 1) 0xFFFFFFFF) = if e = 0xFFFFFFFF then 0xFFFFFFFF else e + 1 := by
  have := e.isLt
  split
  next h => subst h; rfl
  next h =>
    have : e.toNat ≠ 0xFFFFFFFF := fun h' => h (BitVec.eq_of_toNat_eq h')
    apply BitVec.eq_of_toNat_eq
    simp [toWord]
    omega

/-- What no Clock step touches. -/
theorem clockTick_frame (s : State) :
    (clockTick s).cfg = s.cfg ∧ (clockTick s).latched = s.latched ∧ (clockTick s).bufs = s.bufs ∧
    (clockTick s).engine.cur = s.engine.cur := by
  have elapsed : ∀ t : State, t.countElapsed.cfg = t.cfg ∧ t.countElapsed.latched = t.latched ∧
      t.countElapsed.bufs = t.bufs ∧ t.countElapsed.engine.cur = t.engine.cur := by
    intro t
    unfold State.countElapsed
    split <;> exact ⟨rfl, rfl, rfl, rfl⟩
  have wait : ∀ t : State, t.countWait.cfg = t.cfg ∧ t.countWait.latched = t.latched ∧ t.countWait.bufs = t.bufs ∧
      t.countWait.engine.cur = t.engine.cur := by
    intro t
    unfold State.countWait
    split
    · dsimp only
      split
      · exact State.abortTransport_frame _ _
      · exact ⟨rfl, rfl, rfl, rfl⟩
    · exact ⟨rfl, rfl, rfl, rfl⟩
  unfold clockTick
  obtain ⟨a1, a2, a3, a4⟩ := wait ({ s with connectReq := false }.countElapsed)
  obtain ⟨b1, b2, b3, b4⟩ := elapsed { s with connectReq := false }
  exact ⟨a1.trans b1, a2.trans b2, a3.trans b3, a4.trans b4⟩

end Sys2Proof.Machine
end

