-- ==== Sys2Proof/Tests/Slice0.lean ====
section
/-! SUPPORT. Tests of the model's own making: the smoke test of WellFormed, decoding of words written out from spec
30_encoding.md, and one step of each command against the vectors of spec 95_test_vectors.md; then, for each statement with
hypotheses, a state that meets them together. -/

namespace Sys2Proof.Machine.Tests

set_option Elab.async false

/-! ### Helpers -/

/-- The parameters of Program 1 of 95_test_vectors.md. -/
def params : Config := { pixMax := 64, packBytes := 256, txqDepth := 4, bayer := Config.bayerDefault }

/-- A memory holding these bytes from offset 0. -/
def bytesAt (l : List Nat) : Memory := (List.range l.length).zip (l.map fun v => BitVec.ofNat 8 v)

/-- A gray image's bytes, alpha 0xFF. -/
def grayBytes (l : List Nat) : Memory := bytesAt (l.flatMap fun v => [v, v, v, 255])

/-- A colour image's bytes, alpha 0xFF. -/
def rgbBytes (l : List (Nat × Nat × Nat)) : Memory := bytesAt (l.flatMap fun p => [p.1, p.2.1, p.2.2, 255])

/-- The state after reset with a `w` by `h` image `m` and the link up. -/
def withImage (w h : Nat) (m : Memory) : State :=
  let s := State.powerOn params true
  { s with
    regs := { s.regs with imgW := BitVec.ofNat 16 w, imgH := BitVec.ofNat 16 h }
    bufs := { s.bufs with pix := m } }

def withThresh (t : Nat) (s : State) : State := { s with regs := { s.regs with thresh := BitVec.ofNat 16 t } }

def withEdge (s : State) : State := { s with regs := { s.regs with edge := true } }

/-- The next state, or reset where there is none. -/
def after (o : Host.Outcome State Fault Refusal) : State :=
  match o with
  | .next t => t
  | .fault _ => State.reset
  | .refused _ => State.reset

/-- The R channels of the first `n` pixels. -/
def reds (n : Nat) (s : State) : List Nat := (List.range n).map fun i => (pix s.bufs.pix i .R).toNat

/-- The colours of the first `n` pixels. -/
def colours (n : Nat) (s : State) : List (Nat × Nat × Nat) :=
  (List.range n).map fun i => ((pix s.bufs.pix i .R).toNat, (pix s.bufs.pix i .G).toNat, (pix s.bufs.pix i .B).toNat)

/-- The first `n` bytes of PACKMEM. -/
def packed (n : Nat) (s : State) : List Nat := (List.range n).map fun a => (memByte .packmem s.bufs.pack a).toNat

/-- The command accepted, and one Engine step. -/
def ran (o : Host.Outcome State Fault Refusal) : State := engineTurn (after o)

/-! ### 95 section 2: each command accepted, then one Engine step -/

theorem test_luma : colours 2 (ran (exec .luma (withImage 2 1 (rgbBytes [(255, 0, 0), (0, 72, 24)])))) =
    [(76, 76, 76), (45, 45, 45)] := by decide +kernel

theorem test_dthNone : reds 2 (ran (exec .dthNone (withImage 2 1 (grayBytes [127, 128])))) = [0, 255] := by decide +kernel

theorem test_dthGray : reds 4 (ran (exec .dthGray (withThresh 5 (withImage 4 1 (grayBytes [42, 63, 127, 213]))))) =
    [64, 64, 128, 191] := by decide +kernel

theorem test_dth4gray : reds 4 (ran (exec .dth4gray (withImage 4 1 (grayBytes [42, 43, 212, 213])))) =
    [0, 85, 170, 255] := by decide +kernel

theorem test_dthBayer : reds 16 (ran (exec .dthBayer (withImage 4 4 (grayBytes (List.replicate 16 100))))) =
    [0, 255, 0, 255, 0, 0, 255, 0, 0, 255, 0, 255, 255, 0, 0, 0] := by decide +kernel

theorem test_dthFs_wrap : reds 4 (ran (exec .dthFs (withImage 2 2 (grayBytes [128, 128, 128, 128])))) =
    [0, 255, 255, 0] := by decide +kernel

theorem test_dthFs_self_target : reds 3 (ran (exec .dthFs (withImage 1 3 (grayBytes [100, 100, 100])))) =
    [18, 237, 6] := by decide +kernel

theorem test_dthAtk_wrap : reds 3 (ran (exec .dthAtk (withImage 3 1 (grayBytes [100, 100, 100])))) = [0, 0, 255] := by
  decide +kernel

theorem test_dthAtk_clip : reds 3 (ran (exec .dthAtk (withEdge (withImage 3 1 (grayBytes [100, 100, 100]))))) =
    [0, 0, 0] := by decide +kernel

/-- The 4x2 image of 95 section 2.7. -/
def image42 : Memory :=
  rgbBytes [(20, 128, 255), (60, 128, 215), (100, 128, 175), (140, 128, 135), (128, 64, 64), (128, 64, 64), (128, 64, 64),
    (128, 64, 64)]

theorem test_dthPfs_clip : colours 8 (ran (exec .dthPfs (withEdge (withImage 4 2 image42)))) =
    [(255, 255, 255), (0, 0, 0), (255, 255, 255), (0, 0, 0), (0, 0, 0), (0, 0, 0), (255, 0, 0), (0, 0, 0)] := by
  decide +kernel

theorem test_dthPatk_wrap : colours 8 (ran (exec .dthPatk (withImage 4 2 image42))) =
    [(255, 255, 255), (0, 0, 0), (255, 255, 255), (0, 0, 0), (0, 0, 0), (0, 0, 0), (255, 0, 0), (0, 0, 0)] := by
  decide +kernel

/-- COLOR_A (200, 30, 30) and COLOR_B (255, 0, 0). -/
def withColours : State :=
  let s := State.powerOn params true
  { s with regs := { s.regs with colorA := 0x001E1EC8, colorB := 0x000000FF } }

theorem test_palDist : (ran (exec (.palDist .euclid) withColours)).results.resultKey = 4825 ∧
    (ran (exec (.palDist .percept) withColours)).results.resultKey = 7288275 := by decide +kernel

theorem test_palNearest : (ran (exec (.palNearest .euclid) withColours)).results =
    { packLen := 0, result := 2, resultKey := 4825 } := by decide +kernel

theorem test_packBw : packed 1 (ran (exec (.packBw false) (withImage 8 1 (rgbBytes [(0, 0, 0), (255, 0, 0),
    (255, 255, 255), (0, 255, 0), (0, 0, 255), (1, 1, 1), (255, 0, 1), (85, 85, 85)])))) = [0x25] := by decide +kernel

theorem test_packRed : packed 1 (ran (exec (.packRed true) (withImage 8 1 (rgbBytes [(255, 0, 0), (255, 255, 255),
    (255, 255, 255), (255, 255, 255), (255, 255, 255), (255, 255, 255), (255, 255, 255), (255, 0, 0)])))) = [0x81] := by
  decide +kernel

theorem test_pack4gray : packed 2 (ran (exec (.pack4gray false) (withImage 8 1
    (grayBytes [0, 85, 170, 255, 255, 170, 85, 0])))) = [0x3C, 0x5A] := by decide +kernel

/-! ### 30: words written out from the fields, one for each command -/

theorem test_decode_plain : decode 0x00000000 = .ok .nop ∧ decode 0x00000010 = .ok .luma ∧ decode 0x00000052 = .ok .connect := by
  decide

theorem test_decode_dither_binary : decode 0x00000020 = .ok .dthNone ∧ decode 0x00000022 = .ok .dthBayer ∧
    decode 0x00000023 = .ok .dthFs ∧ decode 0x00000024 = .ok .dthAtk := by decide

theorem test_decode_dither_levels : decode 0x00000021 = .ok .dthGray ∧ decode 0x00000027 = .ok .dth4gray := by decide

theorem test_decode_dither_palette : decode 0x00000025 = .ok .dthPfs ∧ decode 0x00000026 = .ok .dthPatk := by decide

theorem test_decode_palette : decode 0x00000030 = .ok (.palDist .euclid) ∧ decode 0x04000030 = .ok (.palDist .percept) ∧
    decode 0x00000031 = .ok (.palNearest .euclid) ∧ decode 0x04000031 = .ok (.palNearest .percept) := by decide

theorem test_decode_pack : decode 0x00000040 = .ok (.packBw false) ∧ decode 0x02000041 = .ok (.packRed true) ∧
    decode 0x00000042 = .ok (.pack4gray false) ∧ decode 0x02000042 = .ok (.pack4gray true) := by decide

theorem test_decode_frameWr : decode 0x01000550 = .ok (.frameWr 0x05 0 true) ∧
    decode 0x01010050 = .ok (.frameWr 0x00 1 true) ∧ decode 0x00140050 = .ok (.frameWr 0x00 20 false) := by decide

theorem test_decode_bulk : decode 0x00002451 = .ok (.bulk 0x24) := by decide

/-- The illegal words of 95 section 2.11. -/
theorem test_decode_illegal : decode 0x00000011 = .error (.unassignedOpcode 0x11) ∧
    decode 0x00000120 = .error (.disallowedBits 0x20) ∧ decode 0x02000030 = .error (.disallowedBits 0x30) ∧
    decode 0x00200050 = .error (.disallowedBits 0x50) ∧ decode 0x80000000 = .error (.disallowedBits 0x00) := by decide

/-- R114's DISPLAY and Program 3's BULK, encoded. -/
theorem test_encode : encode displayCommand = 0x01000550 ∧ encode (.bulk 0x24) = 0x00002451 := by decide

/-! ### The smoke test of WellFormed: the one check, of FRAME_WR's length -/

theorem test_wellFormed_refuses_long_frame : (Instr.frameWr 0x05 32 true).wellFormed = false := by decide

theorem test_wellFormed_admits_length_31 : (Instr.frameWr 0x05 31 true).wellFormed = true := by decide

/-! ### 95 section 2.10 and 2.11: transport -/

/-- These turns, one after the other. -/
def turns (l : List Turn) (s : State) : State := l.foldl (fun s t => after (takeTurn t s)) s

/-- An 8x1 image of black and white pixels, a payload of 100 zero bytes at PACKMEM 0, and the link up. -/
def ready : State :=
  let s := withImage 8 1 (grayBytes [0, 255, 0, 255, 255, 0, 0, 255])
  { s with regs := { s.regs with bulkLen := 100 }, bufs := { s.bufs with pack := bytesAt (List.replicate 100 0) } }

theorem test_nop : (ran (exec .nop ready)).status.done = true ∧ (ran (exec .nop ready)).busy = false := by
  decide +kernel

/-- R317: after a CMD write that is accepted the next STATUS read has BUSY = 1, and after the Engine's step DONE and not BUSY;
a rejected one leaves ERR for the next read. -/
theorem test_busy_after_command :
    (turns [commandTurn 0x10, .host (.read .w32 0x008)] ready).busData = 0xA1 ∧
    (turns [commandTurn 0x52, .host (.read .w32 0x008)] ready).busData = 0xA1 ∧
    (turns [commandTurn 0x10, .engine, .host (.read .w32 0x008)] ready).busData = 0xA2 ∧
    (turns [commandTurn 0x11, .host (.read .w32 0x00C)] ready).busData = 0x00001101 := by decide +kernel

/-- LUMA by turns: one Engine step for each of the two pixels, and the last. -/
theorem test_luma_by_turns :
    let s := { withImage 2 1 (rgbBytes [(255, 0, 0), (0, 72, 24)]) with pace := .byTurns }
    colours 2 (turns [commandTurn 0x10, .engine] s) = [(76, 76, 76), (0, 72, 24)] ∧
    (turns [commandTurn 0x10, .engine, .engine] s).busy = true ∧
    colours 2 (turns [commandTurn 0x10, .engine, .engine, .engine] s) = [(76, 76, 76), (45, 45, 45)] ∧
    (turns [commandTurn 0x10, .engine, .engine, .engine] s).status.done = true := by decide +kernel

theorem test_connect : (ran (exec .connect { ready with retryCnt := 5 })).retryCnt = 0 ∧
    (ran (exec .connect ready)).connectReq = true := by decide +kernel

/-- DISPLAY with ACK_TIMEOUT 3, taken and never answered. -/
def displayTaken : State :=
  turns [setCsr 0x044 3, commandTurn 0x01000550, .engine, .link .takeOk] ready

theorem test_frameWr_times_out :
    (turns [.tick, .tick] displayTaken).busy = true ∧
    csrRead 0x00C (turns [.tick, .tick, .tick] displayTaken) = 0x00005008 ∧
    (turns [.tick, .tick, .tick] displayTaken).retryCnt = 1 ∧
    (turns [.tick, .tick, .tick] displayTaken).connectReq = true := by decide +kernel

theorem test_late_response_is_stale :
    csrRead 0x008 (turns [.tick, .tick, .tick, .link .respOk] displayTaken) = 0xA4 ∧
    (turns [.tick, .tick, .tick, .link .respOk] displayTaken).retryCnt = 1 := by decide +kernel

/-- `BULK 0x10` with TXQ_DEPTH 2, 60 bytes and INTERLEAVE 3, two chunks taken. -/
def bulkHalfSent : State :=
  turns [setCsr 0x034 60, setCsr 0x024 3, commandTurn 0x00001051, .engine, .link .takeOk, .link .respOk, .engine, .engine,
    .link .takeOk, .engine, .link .takeOk, .engine] { ready with cfg := { params with txqDepth := 2 } }

theorem test_bulk_progress : bulkHalfSent.progress.bulkIdx = 3 ∧ bulkHalfSent.progress.bulkTotal = 4 ∧
    csrRead 0x04C bulkHalfSent = 2 := by decide +kernel

theorem test_bulk_disconnect :
    csrRead 0x00C (turns [.link .down] bulkHalfSent) = 0x00005107 ∧
    csrRead 0x008 (turns [.link .down] bulkHalfSent) = 0x94 ∧
    (turns [.link .down] bulkHalfSent).progress.bulkIdx = 0 := by decide +kernel

/-- `BULK 0x24`, 40 bytes, INTERLEAVE 5, the second chunk failing. -/
def bulkFailed : State :=
  turns [setCsr 0x034 40, setCsr 0x024 5, commandTurn 0x00002451, .engine, .link .takeOk, .link .respOk, .engine, .engine, .engine,
    .link .takeOk, .link .takeFail] ready

theorem test_bulk_unacknowledged_failure : csrRead 0x00C bulkFailed = 0x00005106 ∧ csrRead 0x008 bulkFailed = 0xB4 ∧
    bulkFailed.progress.bulkIdx = 3 ∧ bulkFailed.retryCnt = 1 := by decide +kernel

theorem test_notify :
    (turns [.link (.notify [1, 2, 3, 4, 5, 6, 7, 0x2A, 9])] ready).device =
      { driverId := 0x2A, pincfgLo := 0x04030201, pincfgHi := 0x070605 } ∧
    (turns [.link (.notify [1, 2, 3])] ready).device = ready.device := by decide +kernel

theorem test_acceptance_order :
    csrRead 0x00C (turns [commandTurn 0x00140050] (State.powerOn params false)) = 0x00005005 ∧
    csrRead 0x00C (turns [commandTurn 0x00130050] (State.powerOn params false)) = 0x00005004 ∧
    csrRead 0x00C (turns [commandTurn 0x80000000] ready) = 0x00000001 := by decide +kernel

theorem test_busy_and_hazard :
    csrRead 0x00C (turns [commandTurn 0x00000010] bulkHalfSent) = 0x00001002 ∧
    csrRead 0x00C (turns [.host (.read .w8 0x01000000)] bulkHalfSent) = 0x0000FF0A := by decide +kernel

theorem test_misaligned_csr_read_is_a_bus_error :
    locate params .w16 0x002 = none ∧ locate params .w32 0x002 = none := by decide +kernel

/-! ### A state for each statement with hypotheses

Each theorem gives the hypotheses of the statement it is named after, all together, at a concrete state. -/

/-- A BULK whose first frame waits in TXQ for the Link. -/
def bulkWaiting : State := ran (exec (.bulk 0x24) ready)

/-- The same once the Link has taken the frame and owes its response. -/
def bulkTaken : State := after (takeTurn (.link .takeOk) bulkWaiting)

/-- `bulkTaken`, standing at chunk `c`. -/
def bulkAt (c : Nat) : State := { bulkTaken with engine := { bulkTaken.engine with chunkCursor := c } }

theorem witness_DecodeOfEncodeIsTheInstruction : (Instr.frameWr 0x3F 31 true).wellFormed = true := by decide

theorem witness_EncodeOfDecodeIsTheWord : decode 0x01000550 = .ok (.frameWr 0x05 0 true) := by decide

/-- A CMD write, no turn, and one turn of each other agent. -/
theorem witness_StepRunsTheDecodedCommand :
    ((ready.withFetchWord 32 0x10).agenda = .host (.write .w32 0x014 0x10) :: [] ∧ decode 0x10 = .ok .luma) ∧
    Instr.luma.wellFormed = true ∧ ready.agenda = [] ∧
    ∀ turn ∈ [.engine, .tick, .link .up], ({ ready with agenda := [turn] } : State).agenda = turn :: [] := by
  decide +kernel

theorem witness_IllegalWordRecordsIllegalCmd :
    (∀ s, s = ready ∨ s = bulkWaiting → (s.withFetchWord 32 0x11).agenda = .host (.write .w32 0x014 0x11) :: []) ∧
    (∀ row ∈ opcodeTable, row.accepts 0x11 = false) ∧ ready.busy = false ∧ bulkWaiting.busy = true := by
  refine ⟨?_, by decide +kernel, by decide +kernel, by decide +kernel⟩
  rintro s (rfl | rfl) <;> decide +kernel

theorem witness_CommandWhileBusyIsRejected :
    (bulkWaiting.withFetchWord 32 0x10).agenda = .host (.write .w32 0x014 0x10) :: [] ∧
    (bulkWaiting.withFetchWord 32 0x10).busy = true := by decide +kernel

/-- R112's rows, each at the first value that fails it. -/
theorem witness_FirstFailedCheckIsRecorded :
    (State.powerOn params true).busy = false ∧
    firstFailedCheck (State.powerOn params true) .luma = some .config ∧
    firstFailedCheck (withThresh 1 ready) .dthGray = some .config ∧
    firstFailedCheck { ready with regs := { ready.regs with palCnt := 5 } } (.palNearest .euclid) = some .config ∧
    firstFailedCheck { ready with regs := { ready.regs with palCnt := 0 } } .dthPfs = some .config ∧
    firstFailedCheck { ready with regs := { ready.regs with imgW := 9 } } (.packBw true) = some .packSize ∧
    firstFailedCheck { ready with regs := { ready.regs with packDst := 256 } } (.packRed true) = some .config ∧
    firstFailedCheck { ready with regs := { ready.regs with packDst := 255 } } (.pack4gray true) = some .config ∧
    firstFailedCheck ready (.frameWr 0x05 20 true) = some .frameTooLarge ∧
    firstFailedCheck { ready with link := { ready.link with up := false } } (.frameWr 0x05 19 true) =
      some .transportUnavailable ∧
    firstFailedCheck { ready with regs := { ready.regs with bulkSrc := 157 } } (.bulk 0x10) = some .config ∧
    firstFailedCheck { ready with status := { ready.status with permFail := true } } (.bulk 0x10) =
      some .transportUnavailable := by decide +kernel

theorem witness_NopCompletes : ready.busy = false := by decide +kernel

theorem witness_LumaMakesTheImageGray : ready.busy = false ∧ ready.geometryHolds := by decide +kernel

theorem witness_ThresholdDitherCuts : ready.busy = false ∧ ready.geometryHolds := by decide +kernel

theorem witness_GrayDitherRoundsToLevels : (withThresh 2 ready).busy = false ∧
    (withThresh 2 ready).geometryHolds ∧ 2 ≤ (withThresh 2 ready).regs.thresh.toNat := by decide +kernel

theorem witness_FourGrayDitherCuts : ready.busy = false ∧ ready.geometryHolds := by decide +kernel

theorem witness_BayerDitherTestsTheMatrix : ready.busy = false ∧ ready.geometryHolds := by
  decide +kernel

/-- A level that is a half-integer (R147: THRESH = 3 stores 127.5 as 128), and the ends of the ranges. -/
theorem witness_LevelIsNearest : 255 ≤ 255 ∧ 1 ≤ 1 ∧
    2 * |(level 64 2 : Int) * 2 - (levelIndex 64 2 : Int) * 255| = 2 ∧ level 64 2 = 128 := by decide

theorem witness_GrayDiffusionRunsInOrder : ready.busy = false ∧ ready.geometryHolds := by
  decide +kernel

/-- The last pixel, and the one pixel of a 4x3 image that is away from the edges. -/
theorem witness_GrayDiffusionStepValues : (nbFs = nbFs ∨ nbFs = nbAtk) ∧ (nbAtk = nbFs ∨ nbAtk = nbAtk) ∧
    7 < ready.regs.pixels ∧ 1 ≤ 1 ∧ 1 + 2 < (withImage 4 3 []).regs.imgW.toNat ∧
    0 + 2 < (withImage 4 3 []).regs.imgH.toNat := by decide +kernel

theorem witness_PaletteDiffusionRunsInOrder : ready.busy = false ∧ ready.geometryHolds ∧
    1 ≤ ready.regs.palCnt.toNat ∧ ready.regs.palCnt.toNat ≤ 4 := by decide +kernel

theorem witness_PaletteDiffusionStepValues : (nbFs = nbFs ∨ nbFs = nbAtk) ∧ (nbAtk = nbFs ∨ nbAtk = nbAtk) ∧
    7 < ready.regs.pixels := by decide +kernel

/-- A target exists and a target is dropped, under both edge policies. -/
theorem witness_DiffusionTargetsStayInTheImage : (⟨1, 0, 7⟩ : Neighbour) ∈ nbFs ∧ 7 < ready.regs.pixels ∧
    ready.regs.edge = false ∧ target ready.regs 6 ⟨1, 0, 7⟩ = some 7 ∧ target ready.regs 7 ⟨1, 0, 7⟩ = none ∧
    (withEdge ready).regs.edge = true ∧ target (withEdge ready).regs 6 ⟨1, 0, 7⟩ = some 7 ∧
    target (withEdge ready).regs 7 ⟨1, 0, 7⟩ = none := by decide +kernel

/-- Every command answers a next state. -/
theorem answers (i : Instr) (s : State) : exec i s = .next (after (exec i s)) := by
  obtain ⟨t, h⟩ := exec_total i s
  rw [h]
  rfl

theorem witness_GrayDiffusionLeavesBlackAndWhite : ready.busy = false ∧ ready.geometryHolds ∧
    exec .dthFs ready = .next (after (exec .dthFs ready)) ∧ 7 < ready.imageSize ∧ ready.regs.noSelfTarget :=
  ⟨by decide +kernel, by decide +kernel, answers _ _, by decide +kernel, by decide +kernel⟩

theorem witness_PaletteDiffusionLeavesPaletteColours : ready.busy = false ∧ ready.geometryHolds ∧
    1 ≤ ready.regs.palCnt.toNat ∧ ready.regs.palCnt.toNat ≤ 4 ∧ ready.regs.noSelfTarget ∧
    exec .dthPatk ready = .next (after (exec .dthPatk ready)) ∧ 7 < ready.imageSize :=
  ⟨by decide +kernel, by decide +kernel, by decide +kernel, by decide +kernel, by decide +kernel, answers _ _,
    by decide +kernel⟩

theorem witness_PalDistLeavesTheKey : withColours.busy = false := by decide +kernel

theorem witness_PalNearestIsFirstLeast : withColours.busy = false ∧
    1 ≤ withColours.regs.palCnt.toNat ∧ withColours.regs.palCnt.toNat ≤ 4 := by decide +kernel

/-- The planes end exactly at PACKMEM's end. -/
theorem witness_PlanePacksWriteTheirPlane :
    let s := { ready with regs := { ready.regs with packDst := 255 } }
    s.busy = false ∧ s.geometryHolds ∧ s.imageSize % 8 = 0 ∧
      s.regs.packDst.toNat + s.imageSize / 8 ≤ s.cfg.packBytes := by decide +kernel

theorem witness_FourGrayPackWritesTwoPlanes :
    let s := { ready with regs := { ready.regs with packDst := 254 } }
    s.busy = false ∧ s.geometryHolds ∧ s.imageSize % 8 = 0 ∧
      s.regs.packDst.toNat + 2 * (s.imageSize / 8) ≤ s.cfg.packBytes := by decide +kernel

theorem witness_PackedPlanesGiveTheImageBack : ready.busy = false ∧ ready.geometryHolds ∧
    ready.imageSize % 8 = 0 ∧ ready.regs.packDst.toNat + ready.imageSize / 8 ≤ ready.cfg.packBytes ∧
    exec (.packBw false) ready = .next (after (exec (.packBw false) ready)) ∧
    (∀ i, i < ready.imageSize → pixRgb ready.bufs.pix i = ⟨0, 0, 0⟩ ∨ pixRgb ready.bufs.pix i = ⟨255, 255, 255⟩) ∧
    ready.regs.packDst.toNat + 2 * (ready.imageSize / 8) ≤ ready.cfg.packBytes ∧
    exec (.pack4gray false) ready = .next (after (exec (.pack4gray false) ready)) :=
  ⟨by decide +kernel, by decide +kernel, by decide +kernel, by decide +kernel, answers _ _, by decide +kernel,
    by decide +kernel, answers _ _⟩

theorem witness_TurnsAgreeWithOneStep :
    let s := ready.started .luma
    exec .luma ready = .next s ∧ s.engine.phase = .pixel ∧ pixelProgramOf s.engine.cur = some lumaProgram ∧
      s.pace = .atOnce ∧ lumaProgram.count s.latched = 8 :=
  ⟨rfl, rfl, rfl, rfl, by decide +kernel⟩

/-- A CMD write, then a read of STATUS or, when it is rejected, of ERR; and a CSR's write, then its read. -/
theorem witness_AcceptedCommandRuns :
    ready.busy = false ∧ (∀ i ∈ [.nop, .luma, .frameWr 0x05 19 true, .bulk 0x24, .connect],
      i.wellFormed = true ∧ firstFailedCheck ready i = none ∧
      let s := { ready with agenda := [commandTurn (encode i), .host (.read .w32 0x008)] }
      s.agenda = commandTurn (encode i) :: .host (.read .w32 0x008) :: []) ∧
    (let s := { ready with agenda := [commandTurn (encode (.frameWr 0x05 20 true)), .host (.read .w32 0x00C)] }
     s.busy = false ∧ firstFailedCheck s (.frameWr 0x05 20 true) = some .frameTooLarge ∧
       s.agenda = commandTurn (encode (.frameWr 0x05 20 true)) :: .host (.read .w32 0x00C) :: []) ∧
    (0x018, 16) ∈ plainRwCsrs ∧ (0x090, 32) ∈ plainRwCsrs ∧
    ({ ready with agenda := [setCsr 0x018 7, .host (.read .w32 0x018)] } : State).agenda =
      setCsr (BitVec.ofNat 32 0x018) 7 :: .host (.read .w32 (BitVec.ofNat 32 0x018)) :: [] := by decide +kernel

/-- With space in TXQ and with none; and a session at its first frame. -/
theorem witness_FrameWrQueuesItsFrame : ready.busy = false ∧ 19 ≤ 19 ∧ ready.linkUsable ∧
    ready.tx.queue.length < ready.cfg.txqDepth ∧
    ¬({ ready with cfg := { params with txqDepth := 0 } } : State).tx.queue.length < 0 ∧
    (let s := ready.started (.frameWr 0x05 19 false)
     s.engine.phase = .xport ∧ s.engine.cur = .frameWr 0x05 19 false ∧ s.engine.sched = .run ∧ s.engine.chunkCursor = 0 ∧
       s.tx.queue.length < s.cfg.txqDepth) := by decide +kernel

/-- A source range that ends exactly at PACKMEM's end; and a session at its first frame. -/
theorem witness_BulkOpensItsTransfer :
    (let s := { ready with regs := { ready.regs with bulkSrc := 156 } }
     s.busy = false ∧ s.linkUsable ∧ s.regs.bulkSrc.toNat + s.regs.bulkLen.toNat ≤ s.cfg.packBytes) ∧
    (let s := ready.started (.bulk 0x24)
     s.engine.phase = .xport ∧ s.engine.cur = .bulk 0x24 ∧ s.engine.sched = .run ∧ s.engine.chunkCursor = 0 ∧
       s.tx.queue.length < s.cfg.txqDepth) := by decide +kernel

theorem witness_ConnectCompletesAtOnce : ready.busy = false ∧ (ready.started .connect).engine.phase = .xport ∧
    (ready.started .connect).engine.cur = .connect := by decide +kernel

/-- A chunk that is acknowledged, one that is not, and the last. -/
theorem witness_BulkQueuesItsChunks (c : Nat) (k : BitVec 16) (h : (c, k) ∈ [(1, 0), (1, 5), (6, 5), (6, 6)]) :
    let s := { bulkAt c with
      latched := { bulkTaken.latched with interleave := k }
      engine := { (bulkAt c).engine with sched := .run } }
    s.engine.phase = .xport ∧ s.engine.cur = .bulk 0x24 ∧ (s.engine.sched = .run ∨ s.engine.sched = .wSpace) ∧
      s.engine.chunkCursor = c ∧ 1 ≤ c ∧ s.tx.queue.length < s.cfg.txqDepth := by
  simp only [List.mem_cons, Prod.mk.injEq, List.not_mem_nil, or_false] at h
  rcases h with ⟨rfl, rfl⟩ | ⟨rfl, rfl⟩ | ⟨rfl, rfl⟩ | ⟨rfl, rfl⟩ <;> decide +kernel

/-- A session with TXQ full, before and in its wait for space. -/
theorem witness_BulkQueuesItsChunks_full (w : Sched) (h : w ∈ [.run, .wSpace]) :
    let s := { bulkWaiting with
      cfg := { params with txqDepth := 1 }
      engine := { bulkWaiting.engine with sched := w } }
    s.sessionRunning = true ∧ s.cfg.txqDepth ≤ s.tx.queue.length ∧ s.engine.sched = w := by
  simp only [List.mem_cons, List.not_mem_nil, or_false] at h
  rcases h with rfl | rfl <;> decide +kernel

theorem witness_ChunksCoverThePayload : 1 ≤ 6 ∧ 6 ≤ chunkCount 100 := by decide

theorem witness_NoTimeoutWithoutALimit : bulkWaiting.waiting = true ∧ bulkWaiting.latched.ackTimeout = 0 ∧
    ∀ t ∈ ({ bulkWaiting with agenda := [.tick, .engine] } : State).agenda, t = .tick ∨ t = .engine := by decide +kernel

theorem witness_DrainEndsTheCommand :
    let s := { bulkTaken with
      tx := { bulkTaken.tx with ackPending := false }
      engine := { bulkTaken.engine with sched := .wDrain } }
    s.sessionRunning = true ∧ s.engine.sched = .wDrain ∧ s.tx.queue = [] ∧ s.tx.ackPending = false := by decide +kernel

/-- The Link can take an acknowledged and an unacknowledged head; each of the three reasons why it cannot; no response owed,
and the link down. -/
theorem witness_LinkTakesTheHead : bulkWaiting.link.up = true ∧ bulkWaiting.link.owed = false ∧
    bulkWaiting.tx.queue = [{ bytes := [0x03, 0x24], ack := true }] ∧
    (let s := { ready with tx := { ready.tx with queue := [{ bytes := [0x05], ack := false }] } }
     s.link.up = true ∧ s.link.owed = false ∧ s.tx.queue = { bytes := [0x05], ack := false } :: [] ∧
       s.sessionRunning = false) ∧
    bulkTaken.link.owed = true ∧ bulkTaken.tx.queue = [] ∧ (State.powerOn params false).link.up = false := by
  decide +kernel

theorem witness_AwaitedResponseEndsTheWait (c : Nat) (h : c ∈ [0, 1, 6]) :
    (bulkAt c).engine.phase = .xport ∧ (bulkAt c).engine.cur = .bulk 0x24 ∧ (bulkAt c).engine.sched = .wAck ∧
    (bulkAt c).engine.chunkCursor = c ∧ (bulkAt c).tx.ackPending = true ∧ (bulkAt c).link.owed = true := by
  simp only [List.mem_cons, List.not_mem_nil, or_false] at h
  rcases h with rfl | rfl | rfl <;> decide +kernel

theorem witness_AwaitedResponseEndsTheWait_frame : displayTaken.engine.phase = .xport ∧ displayTaken.engine.sched = .wAck ∧
    displayTaken.tx.ackPending = true ∧ displayTaken.link.owed = true ∧
    displayTaken.engine.cur = .frameWr 0x05 0 true := by decide +kernel

theorem witness_StaleResponseIsIgnored :
    let s := turns [.tick, .tick, .tick] displayTaken
    s.tx.ackPending = false ∧ s.link.owed = true ∧ ready.tx.ackPending = false ∧ ready.link.owed = false := by
  decide +kernel

/-- A failed take and a failed response, with the budget unspent and spent. -/
theorem witness_WriteFailureAbortsTheSession (n : BitVec 3) (h : n ∈ [4, 5]) :
    let s := { turns [setCsr 0x034 40, setCsr 0x024 5, commandTurn 0x00002451, .engine, .link .takeOk, .link .respOk, .engine] ready
      with retryCnt := n }
    s.sessionRunning = true ∧ s.link.up = true ∧ s.link.owed = false ∧ (∃ f rest, s.tx.queue = f :: rest ∧ f.ack = false) ∧
      ({ bulkTaken with retryCnt := n } : State).sessionRunning = true ∧ bulkTaken.link.owed = true ∧
      bulkTaken.tx.ackPending = true := by
  simp only [List.mem_cons, List.not_mem_nil, or_false] at h
  rcases h with rfl | rfl <;>
    exact ⟨by decide +kernel, by decide +kernel, by decide +kernel,
      ⟨{ bytes := 0x04 :: List.replicate 19 0, ack := false }, [], by decide +kernel, rfl⟩, by decide +kernel,
      by decide +kernel, by decide +kernel⟩

theorem witness_SixthFailureIsTerminal : bulkTaken.retryCnt = 0 ∧ bulkTaken.status.permFail = false := by decide +kernel

theorem witness_DisconnectAbortsTheSession : bulkTaken.link.up = true ∧ bulkTaken.sessionRunning = true ∧
    ready.link.up = true ∧ ready.sessionRunning = false := by decide +kernel

theorem witness_NotifyRecordsTheDevice : ready.link.up = true ∧ ([1, 2, 3, 4, 5, 6, 7] : List Byte).length < 8 ∧
    ([1, 2, 3, 4, 5, 6, 7, 8] : List Byte) = 1 :: 2 :: 3 :: 4 :: 5 :: 6 :: 7 :: 8 :: [] := by decide +kernel

/-- No session; a session that runs; a wait with no limit, one tick short of its limit, and at it; and ELAPSED at its end. -/
theorem witness_ClockTimesTheWait : ready.sessionRunning = false ∧
    (let s := ready.started (.bulk 0x24)
     s.sessionRunning = true ∧ s.waiting = false) ∧
    bulkWaiting.waiting = true ∧ bulkWaiting.latched.ackTimeout = 0 ∧
    displayTaken.waiting = true ∧ displayTaken.tx.waitCnt + 1 ≠ displayTaken.latched.ackTimeout ∧
    (let s := turns [.tick, .tick] displayTaken
     s.waiting = true ∧ s.latched.ackTimeout ≠ 0 ∧ s.tx.waitCnt + 1 = s.latched.ackTimeout) ∧
    ({ bulkWaiting with progress := { bulkWaiting.progress with elapsed := 0xFFFFFFFF } } : State).waiting = true := by
  decide +kernel

/-- Acknowledged and unacknowledged chunks. -/
theorem witness_CooperativeBulkDeliversItsPayload (k : BitVec 16) (h : k ∈ [0, 2, 6]) :
    let s := { ready with regs := { ready.regs with interleave := k } }
    s.busy = false ∧ s.linkUsable ∧ s.link.owed = false ∧ s.tx.queue = [] ∧ 1 ≤ s.cfg.txqDepth ∧
      s.regs.bulkSrc.toNat + s.regs.bulkLen.toNat ≤ s.cfg.packBytes ∧
      exec (.bulk 0x24) s = .next (after (exec (.bulk 0x24) s)) := by
  simp only [List.mem_cons, List.not_mem_nil, or_false] at h
  rcases h with rfl | rfl | rfl <;>
    exact ⟨by decide +kernel, by decide +kernel, by decide +kernel, by decide +kernel, by decide +kernel,
      by decide +kernel, answers _ _⟩

theorem witness_OneCycleHasOneOutcome :
    let s := turns [.tick, .tick] displayTaken
    s.sessionRunning = true ∧ s.engine.sched = .wAck ∧ s.tx.queue = [] ∧ s.tx.ackPending = true ∧ s.link.owed = true ∧
      s.link.up = true ∧ s.agenda = [] ∧ s.latched.ackTimeout ≠ 0 ∧ s.tx.waitCnt + 1 = s.latched.ackTimeout := by
  decide +kernel

/-- The last byte of each memory, at a boundary of R75's ranges. -/
theorem witness_MemoryAccessWhileBusyIsAHazard :
    bulkWaiting.busy = true ∧ accessLegal bulkWaiting.cfg .w8 (0x008000FF : Word).toNat ∧
    accessLegal bulkWaiting.cfg .w32 (0x010000FC : Word).toNat ∧
    ({ bulkWaiting with agenda := [.host (.read .w8 0x008000FF)] } : State).agenda = .host (.read .w8 0x008000FF) :: [] ∧
    (0xFFC : Word).toNat + 4 ≤ 0x1000 ∧ (0xFFC : Word).toNat % 4 = 0 := by
  refine ⟨by decide +kernel, ?_, ?_, by decide +kernel, by decide +kernel, by decide +kernel⟩ <;> unfold accessLegal <;> decide +kernel

theorem witness_StopsExactlyOnIllegalAccess : ¬accessLegal ready.cfg .w8 (0x00800100 : Word).toNat ∧
    accessLegal ready.cfg .w32 (0x00000FFC : Word).toNat ∧ ¬accessLegal ready.cfg .w16 (0x00000002 : Word).toNat := by
  refine ⟨?_, ?_, ?_⟩ <;> unfold accessLegal <;> decide +kernel

theorem witness_ReadsHaveNoSideEffect :
    ({ ready with agenda := [.host (.read .w16 0x01000002)] } : State).agenda = .host (.read .w16 0x01000002) :: [] ∧
    accessLegal ready.cfg .w16 (0x01000002 : Word).toNat ∧ ready.busy = false ∧
    accessLegal bulkWaiting.cfg .w32 (0x008 : Word).toNat ∧ bulkWaiting.busy = true := by
  refine ⟨by decide +kernel, ?_, by decide +kernel, ?_, by decide +kernel⟩ <;> unfold accessLegal <;> decide +kernel

/-- A write of PACKMEM's last half-word, then its read. -/
def writeThenRead : State :=
  { ready with agenda := [.host (.write .w16 0x008000FE 0x12345678), .host (.read .w16 0x008000FE)] }

theorem witness_MemoryWriteThenReadReturnsIt : writeThenRead.busy = false ∧ 0x1000 ≤ (0x008000FE : Word).toNat ∧
    writeThenRead.agenda = .host (.write .w16 0x008000FE 0x12345678) :: .host (.read .w16 0x008000FE) :: [] ∧
    step writeThenRead = .next (after (step writeThenRead)) ∧
    step (after (step writeThenRead)) = .next (after (step (after (step writeThenRead)))) ∧
    (after (step (after (step writeThenRead)))).busData = 0x5678 ∧
    accessLegal ready.cfg .w8 (0x008000FD : Word).toNat ∧ writeThenRead.cfg.legal ∧
    accessLegal writeThenRead.cfg .w16 (0x008000FE : Word).toNat ∧
    accessLegal writeThenRead.cfg .w32 (0x01000000 : Word).toNat := by
  refine ⟨by decide +kernel, by decide +kernel, by decide +kernel, rfl, rfl, by decide +kernel, ?_, by decide +kernel, ?_, ?_⟩ <;>
    unfold accessLegal <;> decide +kernel

/-- R72: the bytes of a 32-bit write, one by one, and a 16-bit read of two of them. -/
theorem test_little_endian :
    let s := turns [.host (.write .w32 0x00800004 0x11223344)] ready
    packed 8 s = [0, 0, 0, 0, 0x44, 0x33, 0x22, 0x11] ∧
      (turns [.host (.read .w16 0x00800006)] s).busData = 0x1122 := by decide +kernel

/-- R44: FRAME_WR sends FRAME_DATA's bytes in order, byte 4 being FRAME_DATA1's lowest. -/
theorem test_frame_data_order :
    (turns [setCsr 0x080 0x44332211, setCsr 0x084 0x00000055, commandTurn 0x01050650, .engine] ready).tx.queue =
      [{ bytes := [0x06, 0x11, 0x22, 0x33, 0x44, 0x55], ack := true }] := by decide +kernel

theorem witness_CsrWritesFollowTheirAccessType : (0x018, 16) ∈ plainRwCsrs ∧ (0x050, 3) ∈ plainRwCsrs ∧
    0x050 ≠ 0x018 ∧ 0x094 ≤ 0xFFC ∧ (2 : Word).getLsbD 0 = false := by decide

/-- The interrupt line goes up with a STATUS bit and its enable both 1 (R283). -/
theorem witness_StatusReadsAndClears : (turns [setCsr 0x010 0x02, commandTurn 0, .engine] ready).irq = true ∧
    (turns [commandTurn 0, .engine] ready).irq = false := by decide +kernel

theorem witness_ReadOnlyCsrsShowTheState : bulkWaiting.cfg.legal ∧ bulkWaiting.queueBounded ∧
    csrRead 0x04C bulkWaiting = 1 := by decide +kernel

theorem witness_SoftResetRestoresTheCsrs : (1 : Word).getLsbD 0 = true := by decide

/-- `ready` keeps every promise of Safety.lean. -/
theorem ready_good : ready.Good where
  configLegal := by decide +kernel
  canonical := by decide +kernel
  inRange := by decide +kernel
  running := by decide +kernel
  bounded := by decide +kernel
  quiet := by decide +kernel
  ackWait := by decide +kernel
  retry := by decide +kernel
  recorded := by decide +kernel

/-- So does a state with a session running. -/
theorem bulkWaiting_good : bulkWaiting.Good where
  configLegal := by decide +kernel
  canonical := by decide +kernel
  inRange := by decide +kernel
  running := by decide +kernel
  bounded := by decide +kernel
  quiet := by decide +kernel
  ackWait := by decide +kernel
  retry := by decide +kernel
  recorded := by decide +kernel

theorem witness_StepKeepsMemoryCanonical : ready.memoryCanonical ∧ step ready = .next (after (step ready)) :=
  ⟨ready_good.canonical, rfl⟩

theorem witness_StepKeepsGood : bulkWaiting.Good ∧
    step { bulkWaiting with agenda := [.link .takeOk] } = .next bulkTaken := ⟨bulkWaiting_good, rfl⟩

theorem witness_RunningCommandKeepsItsOperands : bulkWaiting.busy = true ∧
    step { bulkWaiting with agenda := [setCsr 0x018 5] } =
      .next (after (step { bulkWaiting with agenda := [setCsr 0x018 5] })) := ⟨by decide +kernel, rfl⟩

theorem witness_SessionLeavesTheMemories : bulkWaiting.sessionRunning = true ∧
    step { bulkWaiting with agenda := [.host (.write .w8 0x00800000 1)] } =
      .next (after (step { bulkWaiting with agenda := [.host (.write .w8 0x00800000 1)] })) := ⟨by decide +kernel, rfl⟩

end Sys2Proof.Machine.Tests
end

section
/-! PROOFS. Every step said once: which agent moves, and what that agent can leave. The canonical form of the memories
(20_memory.md R50, R51) and the operands of a running command (10_state.md R25) follow by cases. -/

namespace Sys2Proof.Machine

/-! ### Whose turn it is -/

/-- Every step is one agent's turn; with nothing on the agenda it is the Engine's (R224). -/
theorem step_cases (s t : State) (h : step s = .next t) :
    ∃ (turn : Turn) (rest : List Turn), takeTurn turn { s with agenda := rest } = .next t := by
  cases ha : s.agenda with
  | nil =>
    rw [step_of_empty s ha] at h
    exact ⟨.engine, [], by rw [← ha]; exact h⟩
  | cons turn rest => exact ⟨turn, rest, by rw [← step_of_agenda s turn rest ha]; exact h⟩

/-! ### What the host can leave -/

/-- The size of a memory's region in bytes (R70). -/
def regionSize (c : Config) : Space → Nat
  | .pixmem => 4 * c.pixMax
  | .packmem => c.packBytes

/-- Everything a host access can leave (R28, R75, R79, R110): a value on the bus or in the registers, a write of STATUS, a
soft reset, a recorded error, an accepted command, or bytes stored within a memory of an idle block. -/
inductive HostEffect (s : State) : State → Prop where
  | registers (r : OperandRegs) (e : IrqEnable) (v : Word) :
      HostEffect s { s with regs := r, irqEn := e, busData := v }
  | statusWrite (v : Word) : HostEffect s (writeStatus v s)
  | reset : HostEffect s s.softReset
  | error (code : ErrCode) (op : Byte) (v : Word) (hcode : code ≠ .noError) :
      HostEffect s { s.raise code op with busData := v }
  | accepted (i : Instr) (hidle : s.busy = false) (hpass : firstFailedCheck s i = none) : HostEffect s (s.started i)
  | stored (sp : Space) (off n v : Nat) (hidle : s.busy = false) (hfit : off + n ≤ regionSize s.cfg sp) :
      HostEffect s { s with bufs := s.bufs.writeAt sp off n v }

theorem firstFailedCheck_ne_noError (s : State) (i : Instr) : firstFailedCheck s i ≠ some .noError := by
  cases i with
  | nop | palDist | connect => simp [firstFailedCheck]
  | _ => simp only [firstFailedCheck]; split_ifs <;> simp

theorem exec_effect (i : Instr) (s t : State) (h : exec i s = .next t) : HostEffect s t := by
  rcases exec_cases i s t h with ⟨_, rfl⟩ | ⟨_, code, hcode, rfl⟩ | ⟨hidle, hpass, rfl⟩
  · exact .error .busy i.opcode s.busData (by decide)
  · exact .error code i.opcode s.busData fun e => firstFailedCheck_ne_noError s i (e ▸ hcode)
  · exact .accepted i hidle hpass

theorem acceptWord_effect (w : Word) (s t : State) (h : acceptWord w s = .next t) : HostEffect s t := by
  cases hd : decode w with
  | ok i => exact exec_effect i s t (by rwa [← acceptWord_ok w i s hd])
  | error e =>
    rw [acceptWord_error w e s hd] at h
    injection h with h
    subst h
    exact .error _ _ s.busData (by split <;> decide)

theorem csrWrite_effect (off : Nat) (v : Word) (s : State) : HostEffect s (csrWrite off v s) := by
  unfold csrWrite
  split
  · unfold writeCtrl
    split
    · exact .reset
    · exact .registers _ s.irqEn s.busData
  · exact .statusWrite v
  · exact .registers s.regs _ s.busData
  · exact .registers _ s.irqEn s.busData

theorem locate_mem_fits (c : Config) (width : Width) (addr : Word) (sp : Space) (off : Nat)
    (h : locate c width addr = some (.mem sp off)) : off + widthBytes width ≤ regionSize c sp := by
  obtain ⟨_, ⟨_, _, hp⟩ | ⟨hlo, hhi, hp⟩ | ⟨hlo, hhi, hp⟩⟩ := locate_cases c width addr _ h
  · cases hp
  · cases hp; simp only [regionSize]; omega
  · cases hp; simp only [regionSize]; omega

theorem hostAccess_effect (a : Access) (s t : State) (h : hostAccess a s = .next t) : HostEffect s t := by
  cases a with
  | read width addr =>
    rcases hostRead_cases width addr s t h with ⟨off, _, rfl⟩ | ⟨sp, off, _, ⟨_, rfl⟩ | ⟨_, rfl⟩⟩
    · exact .registers s.regs s.irqEn _
    · exact .error .hazard 0xFF 0 (by decide)
    · exact .registers s.regs s.irqEn _
  | write width addr data =>
    rcases hostWrite_cases width addr data s t h with ⟨_, h⟩ | ⟨off, _, _, rfl⟩ | ⟨sp, off, hl, ⟨_, rfl⟩ | ⟨hidle, rfl⟩⟩
    · exact acceptWord_effect data s t h
    · exact csrWrite_effect off data s
    · exact .error .hazard 0xFF s.busData (by decide)
    · exact .stored sp off _ _ hidle (locate_mem_fits s.cfg width addr sp off hl)

/-! ### What a write of STATUS leaves (R23, R284) -/

theorem writeStatus_eq (v : Word) (s : State) : writeStatus v s = { s with
    status :=
      { done := s.status.done && !v.getLsbD 1
        err := s.status.err && !v.getLsbD 2
        notify := s.status.notify && !v.getLsbD 3
        prog := s.status.prog && !v.getLsbD 4
        permFail := s.status.permFail }
    error := if v.getLsbD 2 then { code := .noError, op := 0 } else s.error } := by
  cases h : v.getLsbD 2 with
  | false => simp only [writeStatus, h, Bool.false_eq_true, if_false, Bool.not_false, Bool.and_true]
  | true => simp only [writeStatus, h, if_true, Bool.not_true, Bool.and_false]; rfl

/-! ### What one Engine step can leave -/

/-- A PIXEL command `n` indices of its loop further on. -/
def PixelProgram.advance (p : PixelProgram) (n : Nat) (s : State) : State :=
  { s with
    bufs := p.loop s.cfg s.latched s.engine.pixCursor n s.bufs
    engine := { s.engine with pixCursor := s.engine.pixCursor + n } }

/-- At either pace an Engine step takes some of the indices that are left, and may end the command (R224, S10). -/
theorem PixelProgram.turn_cases (p : PixelProgram) (s : State) :
    ∃ n, n ≤ p.count s.latched - s.engine.pixCursor ∧
      (p.turn s = p.advance n s ∨ p.turn s = p.last (p.advance n s)) := by
  cases hpace : s.pace with
  | atOnce => exact ⟨_, le_rfl, .inr (p.turn_atOnce s hpace)⟩
  | byTurns =>
    rw [p.turn_byTurns s hpace]
    rcases p.runIndex_cases s with ⟨hlt, h⟩ | ⟨_, h⟩
    · exact ⟨1, by omega, .inl (h.trans (by rw [PixelProgram.advance, p.loop_succ, p.loop_zero]))⟩
    · exact ⟨0, Nat.zero_le _, .inr h⟩

/-- A property of the memories that the loop's body keeps at every index it runs holds after the loop. -/
theorem PixelProgram.loop_keeps (p : PixelProgram) (P : Buffers → Prop) (c : Config) (r : OperandRegs) (start n : Nat)
    (b : Buffers) (hb : P b) (hbody : ∀ b k, start ≤ k → k < start + n → P b → P (p.body c r k b)) :
    P (p.loop c r start n b) :=
  foldl_keeps P _ _ b hb fun b k hk hP => hbody b k (List.mem_range'_1.1 hk).1 (List.mem_range'_1.1 hk).2 hP

/-- The frame that a session sends next. -/
def SessionProgram.current (p : SessionProgram) (s : State) : TxEntry :=
  p.frameAt s.latched s.bufs.pack s.engine.chunkCursor

/-- A frame put at TXQ's tail. -/
def State.enqueue (f : TxEntry) (s : State) : State := { s with tx := { s.tx with queue := s.tx.queue ++ [f] } }

/-- R232, both cases. -/
theorem SessionProgram.append_cases (p : SessionProgram) (s : State) :
    p.append s = State.enterWait .wAck { s.enqueue (p.current s) with
      tx := { (s.enqueue (p.current s)).tx with ackPending := true } } ∨
    p.append s = p.emitReturn (s.enqueue (p.current s)) := by
  unfold SessionProgram.append
  dsimp only
  split
  · exact .inl rfl
  · exact .inr rfl

/-- What no Engine step of a session touches. -/
theorem SessionProgram.turn_frame (p : SessionProgram) (s : State) :
    (p.turn s).latched = s.latched ∧ (p.turn s).bufs = s.bufs ∧ (p.turn s).engine.cur = s.engine.cur := by
  have returns : ∀ t, (p.emitReturn t).latched = t.latched ∧ (p.emitReturn t).bufs = t.bufs ∧
      (p.emitReturn t).engine.cur = t.engine.cur := by
    intro t
    obtain ⟨_, _, hlatched, hbufs, _, _, hcur, _⟩ := p.emitReturn_frame t
    exact ⟨hlatched, hbufs, hcur⟩
  rcases p.turn_cases s with ⟨_, _, h⟩ | ⟨_, _, h⟩ | ⟨_, _, h⟩ | ⟨_, _, h⟩ | ⟨_, h⟩ <;> rw [h]
  · rcases p.append_cases s with h | h <;> rw [h]
    · exact ⟨rfl, rfl, rfl⟩
    · exact returns (s.enqueue (p.current s))
  · exact ⟨rfl, rfl, rfl⟩
  · exact returns s
  · exact ⟨rfl, rfl, rfl⟩
  · exact ⟨rfl, rfl, rfl⟩

/-- No Engine step touches the latched operands or the command. -/
theorem engineTurn_operands (s : State) :
    (engineTurn s).latched = s.latched ∧ (engineTurn s).engine.cur = s.engine.cur := by
  rcases engineTurn_cases s with h | ⟨_, p, _, h⟩ | ⟨_, _, h⟩ | ⟨_, p, _, h⟩ <;> rw [h]
  · exact ⟨rfl, rfl⟩
  · obtain ⟨n, _, h | h⟩ := p.turn_cases s <;> rw [h] <;> exact ⟨rfl, rfl⟩
  · exact ⟨rfl, rfl⟩
  · obtain ⟨hlatched, _, hcur⟩ := p.turn_frame s
    exact ⟨hlatched, hcur⟩

/-! ### The operands of a running command (R25, R312) -/

theorem HostEffect.operands_of_busy {s t : State} (h : HostEffect s t) (hbusy : s.busy = true) :
    t.latched = s.latched ∧ t.engine.cur = s.engine.cur := by
  cases h with
  | registers | reset | error => exact ⟨rfl, rfl⟩
  | statusWrite v => rw [writeStatus_eq]; exact ⟨rfl, rfl⟩
  | accepted _ hidle | stored _ _ _ _ hidle => rw [hbusy] at hidle; cases hidle

/-- Settles O59: each agent in turn leaves the latched operands and the command. -/
theorem runningCommandKeepsItsOperands : Obligations.RunningCommandKeepsItsOperands := by
  intro s t hbusy hstep
  obtain ⟨turn, rest, h⟩ := step_cases s t hstep
  cases turn with
  | host a => exact (hostAccess_effect a _ t h).operands_of_busy hbusy
  | engine => injection h with h; subst h; exact engineTurn_operands _
  | link e =>
    injection h with h; subst h
    obtain ⟨_, hlatched, _, hcur⟩ := linkStep_frame e { s with agenda := rest }
    exact ⟨hlatched, hcur⟩
  | tick =>
    injection h with h; subst h
    obtain ⟨_, hlatched, _, hcur⟩ := clockTick_frame { s with agenda := rest }
    exact ⟨hlatched, hcur⟩

/-! ### The memories' canonical form (R50, R51; log entry 1) -/

/-- Both memories have their addresses strictly rising. -/
def Buffers.Canonical (b : Buffers) : Prop := Memory.wf b.pix ∧ Memory.wf b.pack

theorem memoryCanonical_iff (s : State) : s.memoryCanonical ↔ s.bufs.Canonical := Iff.rfl

theorem Buffers.Canonical.withPix {b : Buffers} (h : b.Canonical) (m : Memory) (hm : Memory.wf m) :
    Buffers.Canonical { b with pix := m } := ⟨hm, h.2⟩

theorem Buffers.Canonical.putPack {b : Buffers} (h : b.Canonical) (a : Nat) (v : Byte) : (b.putPack a v).Canonical :=
  ⟨h.1, memPut_wf _ _ _ h.2⟩

theorem Buffers.Canonical.writeAt {b : Buffers} (h : b.Canonical) (sp : Space) (off n v : Nat) :
    (b.writeAt sp off n v).Canonical := by
  cases sp with
  | pixmem => exact ⟨memWrite_wf _ _ _ _ h.1, h.2⟩
  | packmem => exact ⟨h.1, memWrite_wf _ _ _ _ h.2⟩

/-- Every PIXEL command's loop body keeps the canonical form, whatever its operands. -/
theorem pixelBody_canonical (i : Instr) (p : PixelProgram) (hp : pixelProgramOf i = some p) (c : Config)
    (r : OperandRegs) (k : Nat) (b : Buffers) (hb : b.Canonical) : (p.body c r k b).Canonical := by
  cases i with
  | nop | palDist | palNearest => cases hp; exact hb
  | luma | dthNone | dthGray | dthBayer | dth4gray => cases hp; exact hb.withPix _ (setGray_wf _ _ _ hb.1)
  | dthFs | dthAtk => cases hp; exact hb.withPix _ (grayEd_wf _ _ _ _ _ _ hb.1)
  | dthPfs | dthPatk => cases hp; exact hb.withPix _ (palEd_wf _ _ _ _ _ hb.1)
  | packBw | packRed => cases hp; exact hb.putPack _ _
  | pack4gray => cases hp; exact (hb.putPack _ _).putPack _ _
  | frameWr | bulk | connect => cases hp

theorem engineTurn_canonical (s : State) (hs : s.bufs.Canonical) : (engineTurn s).bufs.Canonical := by
  rcases engineTurn_cases s with h | ⟨_, p, hp, h⟩ | ⟨_, _, h⟩ | ⟨_, p, _, h⟩ <;> rw [h]
  · exact hs
  · have hloop : ∀ n, (p.advance n s).bufs.Canonical := fun n =>
      p.loop_keeps Buffers.Canonical _ _ _ n _ hs fun b k _ _ hb => pixelBody_canonical _ p hp _ _ k b hb
    obtain ⟨n, _, h | h⟩ := p.turn_cases s <;> rw [h] <;> exact hloop n
  · exact hs
  · obtain ⟨_, hbufs, _⟩ := p.turn_frame s
    rw [hbufs]; exact hs

theorem HostEffect.canonical {s t : State} (h : HostEffect s t) (hs : s.bufs.Canonical) : t.bufs.Canonical := by
  cases h with
  | registers | reset | error => exact hs
  | statusWrite v => rw [writeStatus_eq]; exact hs
  | accepted i => rw [started_bufs]; exact hs
  | stored sp off n v => exact hs.writeAt sp off n v

/-- Settles O57: the host's stores and the PIXEL commands' loops keep the form, and nothing else writes a memory. -/
theorem stepKeepsMemoryCanonical : Obligations.StepKeepsMemoryCanonical := by
  intro s t hs hstep
  obtain ⟨turn, rest, h⟩ := step_cases s t hstep
  rw [memoryCanonical_iff] at hs ⊢
  cases turn with
  | host a => exact (hostAccess_effect a _ t h).canonical hs
  | engine => injection h with h; subst h; exact engineTurn_canonical _ hs
  | link e =>
    injection h with h; subst h
    obtain ⟨_, _, hbufs, _⟩ := linkStep_frame e { s with agenda := rest }
    rw [hbufs]; exact hs
  | tick =>
    injection h with h; subst h
    obtain ⟨_, _, hbufs, _⟩ := clockTick_frame { s with agenda := rest }
    rw [hbufs]; exact hs

end Sys2Proof.Machine
end

section
/-! PROOFS. Every step keeps the promises of Safety.lean: one rule for each operation on the state, then one lemma for each
agent, which names the operations of its step. -/

namespace Sys2Proof.Machine

/-! ### What the promises speak of -/

/-- The two states agree on everything that a promise of Safety.lean speaks of. A field that is not given is the same by
computation, as it is after a record update of other fields. -/
structure State.Agrees (s t : State) : Prop where
  cfg : t.cfg = s.cfg := by rfl
  latched : t.latched = s.latched := by rfl
  bufs : t.bufs = s.bufs := by rfl
  queue : t.tx.queue = s.tx.queue := by rfl
  ackPending : t.tx.ackPending = s.tx.ackPending := by rfl
  phase : t.engine.phase = s.engine.phase := by rfl
  cur : t.engine.cur = s.engine.cur := by rfl
  sched : t.engine.sched = s.engine.sched := by rfl
  retryCnt : t.retryCnt = s.retryCnt := by rfl
  permFail : t.status.permFail = s.status.permFail := by rfl
  err : t.status.err = s.status.err := by rfl
  error : t.error = s.error := by rfl

theorem State.Agrees.sessionRunning {s t : State} (h : s.Agrees t) : t.sessionRunning = s.sessionRunning := by
  unfold State.sessionRunning
  rw [h.phase, h.cur]

/-- The promises depend on nothing else. -/
theorem State.Good.congr {s t : State} (hs : s.Good) (h : s.Agrees t) : t.Good where
  configLegal := by rw [h.cfg]; exact hs.configLegal
  canonical := by rw [memoryCanonical_iff, h.bufs]; exact hs.canonical
  inRange := by unfold State.memoryInRange; rw [h.bufs, h.cfg]; exact hs.inRange
  running := by unfold State.runningLegal; rw [h.phase, h.cur, h.cfg, h.latched]; exact hs.running
  bounded := by unfold State.queueBounded; rw [h.queue, h.cfg]; exact hs.bounded
  quiet := by unfold State.quietWhenNoSession; rw [h.sessionRunning, h.queue, h.ackPending]; exact hs.quiet
  ackWait := by unfold State.ackMatchesWait; rw [h.sessionRunning, h.ackPending, h.sched]; exact hs.ackWait
  retry := by unfold State.retryBudget; rw [h.retryCnt, h.permFail, h.sessionRunning]; exact hs.retry
  recorded := by unfold State.errorRecorded; rw [h.err, h.error]; exact hs.recorded

/-! ### Sessions (R253) -/

theorem sessionRunning_iff (s : State) :
    s.sessionRunning = true ↔ s.engine.phase = .xport ∧ (sessionProgramOf s.engine.cur).isSome = true := by
  unfold State.sessionRunning
  cases s.engine.cur <;> simp [sessionProgramOf]

theorem sessionRunning_of_phase (s : State) (h : s.engine.phase ≠ .xport) : s.sessionRunning = false :=
  Bool.eq_false_iff.2 fun e => h ((sessionRunning_iff s).1 e).1

theorem busy_eq_false_iff (s : State) : s.busy = false ↔ s.engine.phase = .idle := by
  simp [State.busy]

theorem sessionRunning_of_idle (s : State) (h : s.busy = false) : s.sessionRunning = false :=
  sessionRunning_of_phase s (by rw [(busy_eq_false_iff s).1 h]; decide)

theorem State.Good.permFail_of_session {s : State} (hs : s.Good) (hrun : s.sessionRunning = true) :
    s.status.permFail = false := by
  obtain ⟨_, hterminal⟩ := hs.retry
  refine Bool.eq_false_iff.2 fun e => ?_
  rw [(hterminal e).2] at hrun
  cases hrun

/-- A frame in TXQ belongs to a running session (R246). -/
theorem State.Good.session_of_queue {s : State} (hs : s.Good) {f : TxEntry} {rest : List TxEntry}
    (hq : s.tx.queue = f :: rest) : s.sessionRunning = true := by
  refine eq_true_of_ne_false fun hno => ?_
  rw [(hs.quiet hno).1] at hq
  cases hq

/-- A response that is pending is one that a session waits for (R232, R246). -/
theorem State.Good.waits_of_ackPending {s : State} (hs : s.Good) (hpend : s.tx.ackPending = true) :
    s.sessionRunning = true ∧ s.engine.sched = .wAck := by
  have hrun : s.sessionRunning = true := by
    refine eq_true_of_ne_false fun hno => ?_
    rw [(hs.quiet hno).2] at hpend
    cases hpend
  exact ⟨hrun, (hs.ackWait hrun).1 hpend⟩

theorem State.Good.ackPending_of_sched {s : State} (hs : s.Good) (hw : s.engine.sched ≠ .wAck) :
    s.tx.ackPending = false :=
  Bool.eq_false_iff.2 fun hpend => hw (hs.waits_of_ackPending hpend).2

/-! ### Errors (R280, R284, R285, R237, R252) -/

theorem State.Good.raise {s : State} (hs : s.Good) (code : ErrCode) (op : Byte) (hcode : code ≠ .noError) :
    (s.raise code op).Good :=
  { hs with recorded := ⟨⟨fun _ => hcode, fun _ => rfl⟩, fun h => absurd h hcode⟩ }

theorem errorRecorded_of_clear (s : State) (herr : s.status.err = false) (hreg : s.error = { code := .noError, op := 0 }) :
    s.errorRecorded := by
  simp [State.errorRecorded, herr, hreg]

theorem State.Good.clearError {s : State} (hs : s.Good) : s.clearError.Good :=
  { hs with recorded := errorRecorded_of_clear _ rfl rfl }

theorem State.Good.writeSucceeded {s : State} (hs : s.Good) (hperm : s.status.permFail = false) :
    s.writeSucceeded.Good :=
  { hs with retry := ⟨Nat.zero_le _, fun h => by rw [writeSucceeded_status, hperm] at h; cases h⟩ }

/-- One more attempt stays within the budget; the terminal state is entered with the budget spent. -/
theorem State.Good.reconnect {s : State} (hs : s.Good) (hno : s.sessionRunning = false) : s.reconnect.Good := by
  obtain ⟨hle, hterminal⟩ := hs.retry
  rcases s.reconnect_cases with ⟨hlt, h⟩ | ⟨hge, h⟩ <;> rw [h]
  · have hcount : (s.retryCnt + 1).toNat ≤ maxRetry := by
      rw [BitVec.toNat_add]
      exact (Nat.mod_le _ _).trans hlt
    exact { hs with retry := ⟨hcount, fun e => absurd (hterminal e).1 hlt.ne⟩ }
  · exact { hs with retry := ⟨hle, fun _ => ⟨le_antisymm hle hge, hno⟩⟩ }

/-- The end of a command with the transmit side emptied. -/
theorem State.Good.flushed {s : State} (hs : s.Good) : s.flushTx.endCommand.Good :=
  { hs with
    running := rfl
    bounded := ⟨Nat.zero_le _, fun _ h => absurd h List.not_mem_nil⟩
    quiet := fun _ => ⟨rfl, rfl⟩
    ackWait := fun h => by cases h
    retry := ⟨hs.retry.1, fun h => ⟨(hs.retry.2 h).1, rfl⟩⟩ }

theorem State.Good.complete {s : State} (hs : s.Good) (hq : s.tx.queue = []) (hpend : s.tx.ackPending = false) :
    s.complete.Good :=
  hs.flushed.congr { queue := hq, ackPending := hpend }

/-- An abort ends the command, then tries to reconnect, then records its error. -/
theorem State.abortTransport_eq (code : ErrCode) (s : State) :
    s.abortTransport code = s.flushTx.endCommand.reconnect.raise code s.curOp := by
  unfold State.abortTransport State.reconnect
  rw [flushTx_retryCnt, endCommand_retryCnt, flushTx_retryCnt]
  split <;> rfl

theorem State.Good.abortTransport {s : State} (hs : s.Good) (code : ErrCode) (hcode : code ≠ .noError) :
    (s.abortTransport code).Good := by
  rw [State.abortTransport_eq]
  exact (hs.flushed.reconnect rfl).raise code _ hcode

theorem State.Good.abortDisconnected {s : State} (hs : s.Good) : s.abortDisconnected.Good :=
  (hs.flushed.raise .disconnected s.curOp (by decide)).congr {}

/-! ### Reset, CONNECT and acceptance (R301, R248, R110) -/

theorem State.Good.softReset {s : State} (hs : s.Good) : s.softReset.Good :=
  { hs.flushed with
    retry := ⟨Nat.zero_le _, fun h => by cases h⟩
    recorded := errorRecorded_of_clear _ rfl rfl }

theorem State.Good.connectTurn {s : State} (hs : s.Good) (hno : s.sessionRunning = false) : (connectTurn s).Good := by
  obtain ⟨hq, hpend⟩ := hs.quiet hno
  exact { hs.complete hq hpend with retry := ⟨Nat.zero_le _, fun h => by cases h⟩ }

/-- R112: a command that is accepted passed the checks that Safety.lean has of it while it runs. -/
theorem latchedChecks_of_passed (s : State) (i : Instr) (h : firstFailedCheck s i = none) :
    latchedChecks s.cfg s.regs i = true := by
  cases i with
  | nop | palDist | connect => rfl
  | luma | dthNone | dthBayer | dthFs | dthAtk | dth4gray =>
    simp only [firstFailedCheck] at h
    split_ifs at h with hgeo
    exact (geometryOk_iff s).2 hgeo
  | palNearest =>
    simp only [firstFailedCheck] at h
    split_ifs at h with hpal
    exact (paletteOk_iff _).2 hpal
  | dthGray =>
    simp only [firstFailedCheck] at h
    split_ifs at h with hboth
    exact Bool.and_eq_true_iff.2 ⟨(geometryOk_iff s).2 hboth.1, decide_eq_true hboth.2⟩
  | dthPfs | dthPatk =>
    simp only [firstFailedCheck] at h
    split_ifs at h with hboth
    exact Bool.and_eq_true_iff.2 ⟨(geometryOk_iff s).2 hboth.1, (paletteOk_iff _).2 hboth.2⟩
  | packBw | packRed | pack4gray =>
    simp only [firstFailedCheck] at h
    split_ifs at h with hgeo _ hfit
    exact Bool.and_eq_true_iff.2 ⟨(geometryOk_iff s).2 hgeo, decide_eq_true hfit⟩
  | frameWr =>
    simp only [firstFailedCheck] at h
    split_ifs at h with hlen
    exact decide_eq_true (not_lt.1 hlen)
  | bulk =>
    simp only [firstFailedCheck] at h
    split_ifs at h with hfit
    exact decide_eq_true (not_lt.1 hfit)

/-- R112: a session is accepted with the link usable only. -/
theorem permFail_of_session_passed (s : State) (i : Instr) (h : firstFailedCheck s i = none)
    (hi : (sessionProgramOf i).isSome = true) : s.status.permFail = false := by
  cases i with
  | frameWr | bulk => simp only [firstFailedCheck] at h; split_ifs at h with _ hlink; exact hlink.2
  | _ => cases hi

theorem State.Good.started {s : State} (hs : s.Good) (i : Instr) (hidle : s.busy = false)
    (hpass : firstFailedCheck s i = none) : (s.started i).Good := by
  obtain ⟨hq, hpend⟩ := hs.quiet (sessionRunning_of_idle s hidle)
  have hcheck := latchedChecks_of_passed s i hpass
  have hrunning : (s.started i).runningLegal = true := by
    unfold State.runningLegal
    rw [started_phase, started_cur, started_cfg, started_latched, hcheck]
    cases (pixelProgramOf i).isSome <;> rfl
  have hretry : (s.started i).retryBudget := by
    unfold State.retryBudget
    rw [started_retryCnt, started_status]
    refine ⟨hs.retry.1, fun hperm => ⟨(hs.retry.2 hperm).1, Bool.eq_false_iff.2 fun hrun => ?_⟩⟩
    obtain ⟨_, hi⟩ := (sessionRunning_iff _).1 hrun
    rw [started_cur] at hi
    rw [permFail_of_session_passed s i hpass hi] at hperm
    cases hperm
  exact {
    configLegal := by rw [started_cfg]; exact hs.configLegal
    canonical := by rw [memoryCanonical_iff, started_bufs]; exact hs.canonical
    inRange := by unfold State.memoryInRange; rw [started_bufs, started_cfg]; exact hs.inRange
    running := hrunning
    bounded := by unfold State.queueBounded; rw [started_tx, started_cfg]; exact hs.bounded
    quiet := fun _ => by rw [started_tx]; exact ⟨hq, hpend⟩
    ackWait := fun _ => by rw [started_tx, started_sched, hpend]; decide
    retry := hretry
    recorded := by unfold State.errorRecorded; rw [started_status, started_error]; exact hs.recorded }

/-! ### The memories' regions (R50, R51, R81) -/

/-- Both memories hold bytes of their own regions only. -/
def Buffers.Within (c : Config) (b : Buffers) : Prop :=
  (∀ x ∈ b.pix, x.1 < 4 * c.pixMax) ∧ (∀ x ∈ b.pack, x.1 < c.packBytes)

theorem Buffers.Within.withPix {c : Config} {b : Buffers} (h : b.Within c) (m : Memory)
    (hm : ∀ x ∈ m, x.1 < 4 * c.pixMax) : Buffers.Within c { b with pix := m } := ⟨hm, h.2⟩

theorem Buffers.Within.putPack {c : Config} {b : Buffers} (h : b.Within c) (a : Nat) (v : Byte)
    (ha : a < c.packBytes) : (b.putPack a v).Within c := ⟨h.1, memPut_below _ _ _ _ ha h.2⟩

theorem Buffers.Within.writeAt {c : Config} {b : Buffers} (h : b.Within c) (sp : Space) (off n v : Nat)
    (hfit : off + n ≤ regionSize c sp) : (b.writeAt sp off n v).Within c := by
  cases sp with
  | pixmem => exact ⟨memWrite_below _ _ _ _ _ hfit h.1, h.2⟩
  | packmem => exact ⟨h.1, memWrite_below _ _ _ _ _ hfit h.2⟩

theorem State.Good.withBufs {s : State} (hs : s.Good) (b : Buffers) (hcanon : b.Canonical) (hwithin : b.Within s.cfg) :
    State.Good { s with bufs := b } :=
  { hs with canonical := hcanon, inRange := hwithin }

/-- R144: a target is a pixel of the image. -/
theorem target_lt_pixels (r : OperandRegs) (i j : Nat) (nb : Neighbour) (h : target r i nb = some j) : j < r.pixels := by
  unfold target at h
  split at h
  · simp only [targetClip] at h
    split_ifs at h with hin
    obtain ⟨hx, hwidth, hheight⟩ := hin
    injection h with h
    have hcol : (((i % r.width : Nat) : Int) + nb.dx).toNat < r.width := by omega
    calc j = (i / r.width + nb.dy) * r.width + (((i % r.width : Nat) : Int) + nb.dx).toNat := h.symm
      _ < (i / r.width + nb.dy + 1) * r.width := by rw [Nat.succ_mul]; omega
      _ ≤ r.height * r.width := Nat.mul_le_mul_right _ hheight
      _ = r.pixels := Nat.mul_comm _ _
  · simp only [targetWrap] at h
    split_ifs at h with hin
    injection h with h
    omega

theorem diffuse_below (r : OperandRegs) (nbs : List Neighbour) (errs : List (Channel × Int)) (i n : Nat) (m : Memory)
    (hn : r.pixels ≤ n) (h : ∀ x ∈ m, x.1 < 4 * n) : ∀ x ∈ diffuse r nbs errs i m, x.1 < 4 * n := by
  refine foldl_keeps (fun m => ∀ x ∈ m, x.1 < 4 * n) _ nbs m h fun m nb _ hm => ?_
  cases ht : target r i nb with
  | none => exact hm
  | some j =>
    have hj : j < n := (target_lt_pixels r i j nb ht).trans_le hn
    exact foldl_keeps (fun m => ∀ x ∈ m, x.1 < 4 * n) _ errs m hm fun m e _ hm => setPix_below _ _ _ _ _ hj hm

theorem grayEd_below (r : OperandRegs) (cut : Nat) (rate : Int) (nbs : List Neighbour) (m : Memory) (i n : Nat)
    (hi : i < n) (hn : r.pixels ≤ n) (h : ∀ x ∈ m, x.1 < 4 * n) : ∀ x ∈ grayEd r cut rate nbs m i, x.1 < 4 * n :=
  setPix_below _ _ _ _ _ hi (setPix_below _ _ _ _ _ hi (diffuse_below _ _ _ _ _ _ hn (setPix_below _ _ _ _ _ hi h)))

theorem palEd_below (r : OperandRegs) (rate : Int) (nbs : List Neighbour) (m : Memory) (i n : Nat) (hi : i < n)
    (hn : r.pixels ≤ n) (h : ∀ x ∈ m, x.1 < 4 * n) : ∀ x ∈ palEd r rate nbs m i, x.1 < 4 * n :=
  diffuse_below _ _ _ _ _ _ hn
    (setPix_below _ _ _ _ _ hi (setPix_below _ _ _ _ _ hi (setPix_below _ _ _ _ _ hi h)))

theorem pixels_le_of_geometryOk (c : Config) (r : OperandRegs) (h : geometryOk c r = true) : r.pixels ≤ c.pixMax := by
  simp only [geometryOk, Bool.and_eq_true, decide_eq_true_eq] at h
  exact h.2

/-- A PIXEL command that passed its checks stays within the regions at every index of its loop (R81, R112). -/
theorem pixelBody_within (i : Instr) (p : PixelProgram) (hp : pixelProgramOf i = some p) (c : Config) (r : OperandRegs)
    (k : Nat) (b : Buffers) (hcheck : latchedChecks c r i = true) (hk : k < p.count r) (hb : b.Within c) :
    (p.body c r k b).Within c := by
  have image : geometryOk c r = true → k < r.pixels → k < c.pixMax ∧ r.pixels ≤ c.pixMax := fun hgeo hk =>
    ⟨hk.trans_le (pixels_le_of_geometryOk c r hgeo), pixels_le_of_geometryOk c r hgeo⟩
  cases i with
  | nop | palDist | palNearest => cases hp; exact hb
  | luma | dthNone | dthBayer | dth4gray =>
    cases hp
    exact hb.withPix _ (setGray_below _ _ _ _ (image hcheck hk).1 hb.1)
  | dthGray =>
    cases hp
    exact hb.withPix _ (setGray_below _ _ _ _ (image (Bool.and_eq_true_iff.1 hcheck).1 hk).1 hb.1)
  | dthFs | dthAtk =>
    cases hp
    obtain ⟨hlt, hle⟩ := image hcheck hk
    exact hb.withPix _ (grayEd_below _ _ _ _ _ _ _ hlt hle hb.1)
  | dthPfs | dthPatk =>
    cases hp
    obtain ⟨hlt, hle⟩ := image (Bool.and_eq_true_iff.1 hcheck).1 hk
    exact hb.withPix _ (palEd_below _ _ _ _ _ _ hlt hle hb.1)
  | packBw | packRed =>
    cases hp
    have hfit : r.packDst.toNat + r.pixels / 8 ≤ c.packBytes := of_decide_eq_true (Bool.and_eq_true_iff.1 hcheck).2
    have hk : k < r.pixels / 8 := hk
    exact hb.putPack _ _ (by omega)
  | pack4gray =>
    cases hp
    have hfit : r.packDst.toNat + 2 * (r.pixels / 8) ≤ c.packBytes :=
      of_decide_eq_true (Bool.and_eq_true_iff.1 hcheck).2
    have hk : k < r.pixels / 8 := hk
    exact (hb.putPack _ _ (by omega)).putPack _ _ (by omega)
  | frameWr | bulk | connect => cases hp

/-! ### The transmit side (R53, R220, R232) -/

/-- R105, R220, R240: every frame of a session that passed its checks has 1 to 20 bytes. -/
theorem frameAt_length (i : Instr) (p : SessionProgram) (hp : sessionProgramOf i = some p) (c : Config)
    (r : OperandRegs) (m : Memory) (k : Nat) (hcheck : latchedChecks c r i = true) :
    1 ≤ (p.frameAt r m k).bytes.length ∧ (p.frameAt r m k).bytes.length ≤ frameMax := by
  cases i with
  | frameWr fop len ack =>
    cases hp
    have hlen : len ≤ 19 := of_decide_eq_true hcheck
    simp only [frameProgram, frame, List.length_cons, List.length_map, List.length_range, frameMax]
    omega
  | bulk fop =>
    cases hp
    simp only [bulkProgram]
    split
    · simp [frame, frameMax]
    · simp only [frame, chunkData, chunkLength, chunkSize, List.length_cons, List.length_map, List.length_range, frameMax]
      omega
  | _ => cases hp

theorem State.Good.enqueue {s : State} (hs : s.Good) (f : TxEntry) (hrun : s.sessionRunning = true)
    (hspace : s.txqHasSpace = true) (hf : 1 ≤ f.bytes.length ∧ f.bytes.length ≤ frameMax) : (s.enqueue f).Good := by
  have hlen : s.tx.queue.length < s.cfg.txqDepth := of_decide_eq_true hspace
  have hbounded : (s.enqueue f).queueBounded := by
    refine ⟨?_, fun g hg => ?_⟩
    · simpa [State.enqueue] using hlen
    · rcases List.mem_append.1 hg with hg | hg
      · exact hs.bounded.2 g hg
      · rw [List.mem_singleton.1 hg]; exact hf
  exact { hs with bounded := hbounded, quiet := fun hno => absurd (hrun.symm.trans hno) (by decide) }

theorem State.Good.dequeue {s : State} (hs : s.Good) {f : TxEntry} {rest : List TxEntry}
    (hq : s.tx.queue = f :: rest) : State.Good { s with tx := { s.tx with queue := rest } } := by
  have hrun := hs.session_of_queue hq
  obtain ⟨hlen, hframes⟩ := hs.bounded
  rw [hq] at hlen hframes
  have hbounded : State.queueBounded { s with tx := { s.tx with queue := rest } } :=
    ⟨(Nat.le_succ _).trans hlen, fun g hg => hframes g (List.mem_cons_of_mem _ hg)⟩
  exact { hs with bounded := hbounded, quiet := fun hno => absurd (hrun.symm.trans hno) (by decide) }

/-- A running session may change its scheduler state if a response is then pending exactly in W_ACK. -/
theorem State.Good.reschedule {s : State} (hs : s.Good) (hrun : s.sessionRunning = true) (w : Sched) (pend : Bool)
    (hw : pend = true ↔ w = .wAck) :
    State.Good { s with engine := { s.engine with sched := w }, tx := { s.tx with ackPending := pend } } :=
  { hs with
    quiet := fun hno => absurd (hrun.symm.trans hno) (by decide)
    ackWait := fun _ => hw }

/-- When emit returns, the next frame's turn or drain() follows (R233). -/
theorem SessionProgram.emitReturn_sched (p : SessionProgram) (s : State) : (p.emitReturn s).engine.sched ≠ .wAck := by
  unfold SessionProgram.emitReturn
  dsimp only
  split <;> simp

/-- No response is pending any more. -/
def State.unpended (s : State) : State := { s with tx := { s.tx with ackPending := false } }

theorem State.Good.emitReturn {s : State} (hs : s.Good) (hrun : s.sessionRunning = true) (p : SessionProgram) :
    (p.emitReturn s.unpended).Good := by
  obtain ⟨hcfg, _, hlatched, hbufs, hqueue, hpend, hcur, hphase, herror, herr, hperm, hretry, _⟩ :=
    p.emitReturn_frame s.unpended
  have hsched := p.emitReturn_sched s.unpended
  exact (hs.reschedule hrun (p.emitReturn s.unpended).engine.sched false
    ⟨fun h => (by cases h), fun h => absurd h hsched⟩).congr
      ⟨hcfg, hlatched, hbufs, hqueue, hpend, hphase, hcur, rfl, hretry, hperm, herr, herror⟩

/-- With nothing pending, emit's return needs no response. -/
theorem State.Good.emitReturn_of_no_ack {s : State} (hs : s.Good) (hrun : s.sessionRunning = true)
    (hpend : s.tx.ackPending = false) (p : SessionProgram) : (p.emitReturn s).Good := by
  have hsame : s.unpended = s := by rw [State.unpended, ← hpend]
  exact hsame ▸ hs.emitReturn hrun p

/-! ### The host -/

theorem State.Good.writeStatus {s : State} (hs : s.Good) (v : Word) : (writeStatus v s).Good := by
  rw [writeStatus_eq]
  cases v.getLsbD 2 with
  | false => exact hs.congr { err := Bool.and_true _ }
  | true => exact hs.clearError.congr { err := Bool.and_false _ }

theorem HostEffect.good {s u : State} (h : HostEffect s u) (hs : s.Good) : u.Good := by
  cases h with
  | registers => exact hs.congr {}
  | statusWrite v => exact hs.writeStatus v
  | reset => exact hs.softReset
  | error code op v hcode =>
    exact (hs.raise code op hcode).congr {}
  | accepted i hidle hpass => exact hs.started i hidle hpass
  | stored sp off n v _ hfit =>
    exact hs.withBufs _ (Buffers.Canonical.writeAt hs.canonical sp off n v)
      (Buffers.Within.writeAt hs.inRange sp off n v hfit)

/-! ### The Engine -/

theorem State.Good.latchedChecks {s : State} (hs : s.Good) (hbusy : s.engine.phase ≠ .idle) :
    latchedChecks s.cfg s.latched s.engine.cur = true := by
  have hrunning := hs.running
  unfold State.runningLegal at hrunning
  split at hrunning
  next hidle => exact absurd hidle hbusy
  next => exact (Bool.and_eq_true_iff.1 hrunning).2
  next => exact (Bool.and_eq_true_iff.1 hrunning).2

theorem PixelProgram.turn_good (p : PixelProgram) (s : State) (hs : s.Good) (hphase : s.engine.phase = .pixel)
    (hp : pixelProgramOf s.engine.cur = some p) : (p.turn s).Good := by
  have hno := sessionRunning_of_phase s (by rw [hphase]; decide)
  have hcheck := hs.latchedChecks (by rw [hphase]; decide)
  obtain ⟨n, hn, h⟩ := p.turn_cases s
  have hadvance : (p.advance n s).Good := by
    refine State.Good.congr (hs.withBufs (p.advance n s).bufs ?_ ?_) {}
    · exact p.loop_keeps Buffers.Canonical _ _ _ n _ hs.canonical fun b k _ _ hb =>
        pixelBody_canonical _ p hp _ _ k b hb
    · exact p.loop_keeps (Buffers.Within s.cfg) _ _ _ n _ hs.inRange fun b k _ _ hb =>
        pixelBody_within _ p hp _ _ k b hcheck (by omega) hb
  obtain ⟨hq, hpend⟩ := hs.quiet hno
  rcases h with h | h <;> rw [h]
  · exact hadvance
  · exact (hadvance.complete hq hpend).congr {}

theorem SessionProgram.append_good (p : SessionProgram) (s : State) (hs : s.Good) (hrun : s.sessionRunning = true)
    (hp : sessionProgramOf s.engine.cur = some p) (hspace : s.txqHasSpace = true) (hpend : s.tx.ackPending = false) :
    (p.append s).Good := by
  have hphase : s.engine.phase = .xport := ((sessionRunning_iff s).1 hrun).1
  have hcheck := hs.latchedChecks (by rw [hphase]; decide)
  have hqueued : (s.enqueue (p.current s)).Good := hs.enqueue _ hrun hspace (frameAt_length _ p hp _ _ _ _ hcheck)
  rcases p.append_cases s with h | h <;> rw [h]
  · exact (hqueued.reschedule hrun .wAck true (by decide)).congr {}
  · exact hqueued.emitReturn_of_no_ack hrun hpend p

theorem SessionProgram.turn_good (p : SessionProgram) (s : State) (hs : s.Good) (hrun : s.sessionRunning = true)
    (hp : sessionProgramOf s.engine.cur = some p) : (p.turn s).Good := by
  rcases p.turn_cases s with ⟨hw, hspace, h⟩ | ⟨hw, _, h⟩ | ⟨hw, hpend, h⟩ | ⟨_, hdrained, h⟩ | ⟨_, h⟩ <;> rw [h]
  · refine p.append_good s hs hrun hp hspace (hs.ackPending_of_sched ?_)
    rcases hw with hw | hw <;> rw [hw] <;> decide
  · have hpend := hs.ackPending_of_sched (by rw [hw]; decide)
    exact (hs.reschedule hrun .wSpace false (by decide)).congr
      { ackPending := hpend }
  · exact hs.emitReturn_of_no_ack hrun hpend p
  · obtain ⟨hq, hpend⟩ : s.tx.queue = [] ∧ s.tx.ackPending = false := by simpa [State.drained] using hdrained
    exact hs.complete hq hpend
  · exact hs

theorem engineTurn_good (s : State) (hs : s.Good) : (engineTurn s).Good := by
  rcases engineTurn_cases s with h | ⟨hphase, p, hp, h⟩ | ⟨_, hcur, h⟩ | ⟨hphase, p, hp, h⟩ <;> rw [h]
  · exact hs
  · exact p.turn_good s hs hphase hp
  · refine hs.connectTurn (Bool.eq_false_iff.2 fun hrun => ?_)
    obtain ⟨_, hsome⟩ := (sessionRunning_iff s).1 hrun
    rw [hcur] at hsome
    cases hsome
  · exact p.turn_good s hs ((sessionRunning_iff s).2 ⟨hphase, by rw [hp]; rfl⟩) hp

/-! ### The Link -/

theorem takeable_queue (s : State) (f : TxEntry) (rest : List TxEntry) (h : s.takeable = some (f, rest)) :
    s.tx.queue = f :: rest := by
  unfold State.takeable at h
  split at h
  · split at h
    · cases h
    next hq => cases h; exact hq
  · cases h

theorem linkTakeOk_good (s : State) (hs : s.Good) : (linkTakeOk s).Good := by
  unfold linkTakeOk
  split
  · exact hs
  next f rest htake =>
    have hq := takeable_queue s f rest htake
    have htaken := hs.dequeue hq
    dsimp only
    split
    · exact htaken.congr {}
    · exact (htaken.writeSucceeded (hs.permFail_of_session (hs.session_of_queue hq))).congr {}

theorem linkTakeFail_good (s : State) (hs : s.Good) : (linkTakeFail s).Good := by
  unfold linkTakeFail
  split
  · exact hs
  next f rest htake =>
    have hremoved : (State.clearWait { s with tx := { s.tx with queue := rest } }).Good :=
      (hs.dequeue (takeable_queue s f rest htake)).congr {}
    dsimp only
    split
    · exact hs
    · split
      · exact hremoved.abortTransport .writeFailed (by decide)
      · exact hremoved

/-- The Link no longer owes a response, and the wait starts anew (R245, R236). -/
def State.answered (s : State) : State := State.clearWait { s with link := { s.link with owed := false } }

theorem State.Good.answered {s : State} (hs : s.Good) : s.answered.Good :=
  hs.congr {}

theorem leaveAckWait_eq (s : State) (p : SessionProgram) (hrun : s.sessionRunning = true)
    (hw : s.engine.sched = .wAck) (hp : sessionProgramOf s.engine.cur = some p) : s.leaveAckWait = p.emitReturn s := by
  simp [State.leaveAckWait, hrun, hw, hp]

/-- The awaited response is a success and ends the wait in its own step (R234, log entry 11). -/
theorem State.Good.succeed {s : State} (hs : s.Good) (hpend : s.tx.ackPending = true) :
    s.writeSucceeded.unpended.leaveAckWait.Good := by
  obtain ⟨hrun, hw⟩ := hs.waits_of_ackPending hpend
  obtain ⟨p, hp⟩ := Option.isSome_iff_exists.1 ((sessionRunning_iff s).1 hrun).2
  rw [leaveAckWait_eq s.writeSucceeded.unpended p hrun hw hp]
  exact (hs.writeSucceeded (hs.permFail_of_session hrun)).emitReturn hrun p

theorem linkRespOk_good (s : State) (hs : s.Good) : (linkRespOk s).Good := by
  unfold linkRespOk
  split
  · dsimp only
    split
    next hpend => exact hs.answered.succeed hpend
    next => exact hs.answered
  · exact hs

theorem linkRespFail_good (s : State) (hs : s.Good) : (linkRespFail s).Good := by
  unfold linkRespFail
  split
  · dsimp only
    split
    · exact hs.answered.abortTransport .writeFailed (by decide)
    · exact hs.answered
  · exact hs

theorem linkDown_good (s : State) (hs : s.Good) : (linkDown s).Good := by
  have hdown : State.Good { s with link := { s.link with up := false, owed := false } } :=
    hs.congr {}
  unfold linkDown
  split
  · dsimp only
    split
    · exact hdown.abortDisconnected
    · exact hdown
  · exact hs

theorem linkStep_good (e : LinkEvent) (s : State) (hs : s.Good) : (linkStep e s).Good := by
  cases e with
  | takeOk => exact linkTakeOk_good s hs
  | takeFail => exact linkTakeFail_good s hs
  | respOk => exact linkRespOk_good s hs
  | respFail => exact linkRespFail_good s hs
  | down => exact linkDown_good s hs
  | up =>
    simp only [linkStep, linkUp]
    split
    · exact hs
    · exact hs.congr {}
  | notify m =>
    simp only [linkStep, linkNotify]
    split
    · exact hs.congr {}
    · exact hs

/-! ### The Clock -/

theorem countElapsed_good (s : State) (hs : s.Good) : s.countElapsed.Good := by
  unfold State.countElapsed
  split
  · exact hs.congr {}
  · exact hs

theorem countWait_good (s : State) (hs : s.Good) : s.countWait.Good := by
  have hcounted : State.Good { s with tx := { s.tx with waitCnt := s.tx.waitCnt + 1 } } :=
    hs.congr {}
  unfold State.countWait
  split
  · dsimp only
    split
    · exact hcounted.abortTransport .timeout (by decide)
    · exact hcounted
  · exact hs

theorem clockTick_good (s : State) (hs : s.Good) : (clockTick s).Good := by
  have hpulse : State.Good { s with connectReq := false } :=
    hs.congr {}
  exact countWait_good _ (countElapsed_good _ hpulse)

/-! ### The step -/

/-- Settles O58: the promises do not depend on the agenda, and each agent's step keeps them. -/
theorem stepKeepsGood : Obligations.StepKeepsGood := by
  intro s t hs hstep
  obtain ⟨turn, rest, h⟩ := step_cases s t hstep
  have hs' : State.Good { s with agenda := rest } :=
    hs.congr {}
  cases turn with
  | host a => exact (hostAccess_effect a _ t h).good hs'
  | engine => injection h with h; subst h; exact engineTurn_good _ hs'
  | link e => injection h with h; subst h; exact linkStep_good e _ hs'
  | tick => injection h with h; subst h; exact clockTick_good _ hs'

end Sys2Proof.Machine
end

section
/-! PROOFS. The CSR bank as the host sees it (10_state.md R20 to R44): the bits of a word made of flags, what a read of each
CSR returns, and which reads a write changes. -/

namespace Sys2Proof.Machine

/-! ### Words made of bits -/

/-- The binary digits of a sum of distinct powers of two, in rising order. -/
theorem testBit_sum_of_bits (l : List (Nat × Bool)) (hrising : l.Pairwise (·.1 < ·.1)) (k : Nat) :
    ((l.map fun p : Nat × Bool => p.2.toNat * 2 ^ p.1).sum).testBit k = l.any fun p => decide (p.1 = k) && p.2 := by
  induction l with
  | nil => simp
  | cons p rest ih =>
    obtain ⟨n, b⟩ := p
    obtain ⟨habove, hrest⟩ := List.pairwise_cons.1 hrising
    have hdvd : 2 ^ (n + 1) ∣ (rest.map fun p : Nat × Bool => p.2.toNat * 2 ^ p.1).sum := by
      refine List.dvd_sum fun x hx => ?_
      obtain ⟨q, hq, rfl⟩ := List.mem_map.1 hx
      exact Dvd.dvd.mul_left (pow_dvd_pow 2 (habove q hq)) _
    obtain ⟨m, hm⟩ := hdvd
    have hlow : b.toNat * 2 ^ n < 2 ^ (n + 1) := by
      rw [pow_succ, Nat.mul_comm (2 ^ n)]
      exact Nat.mul_lt_mul_of_pos_right b.toNat_lt (Nat.two_pow_pos n)
    have hbit : (b.toNat * 2 ^ n).testBit k = (decide (n = k) && b) := by
      cases b <;> simp [Nat.testBit_two_pow]
    have ih := ih hrest
    rw [hm, Nat.testBit_two_pow_mul] at ih
    rw [List.map_cons, List.sum_cons, hm, Nat.add_comm, Nat.testBit_two_pow_mul_add _ hlow, List.any_cons, ← ih, hbit]
    by_cases hk : k < n + 1
    · have hnot : ¬n < k := by omega
      simp [hk, hnot]
    · have hlt : n < k := by omega
      simp [hk, hlt, hlt.ne]

/-- Bit `k` of a word made of flags is the flag listed for it, and 0 if none is. -/
theorem wordOfBits_getLsbD (l : List (Nat × Bool)) (hrising : l.Pairwise (·.1 < ·.1))
    (hwidth : ∀ p ∈ l, p.1 < 32) (k : Nat) : (wordOfBits l).getLsbD k = l.any fun p => decide (p.1 = k) && p.2 := by
  unfold wordOfBits toWord
  rw [BitVec.getLsbD_ofNat, testBit_sum_of_bits l hrising]
  by_cases hk : k < 32
  · simp [hk]
  · have hnone : (l.any fun p => decide (p.1 = k) && p.2) = false := by
      refine List.any_eq_false.2 fun p hp => ?_
      have hne : p.1 ≠ k := by have := hwidth p hp; omega
      simp [hne]
    rw [hnone, Bool.and_false]

/-! ### STATUS, IRQ_EN, CTRL and the interrupt line (R22, R23, R27, R283) -/

theorem csrRead_status_bit (s : State) (k : Nat) : (csrRead 0x008 s).getLsbD k =
    match k with
    | 0 => s.engine.phase != .idle
    | 1 => s.status.done
    | 2 => s.status.err
    | 3 => s.status.notify
    | 4 => s.status.prog
    | 5 => s.link.up
    | 6 => s.status.permFail
    | 7 => s.tx.queue.isEmpty
    | _ => false := by
  have hbits := wordOfBits_getLsbD [(0, s.busy), (1, s.status.done), (2, s.status.err), (3, s.status.notify),
    (4, s.status.prog), (5, s.link.up), (6, s.status.permFail), (7, s.txqEmpty)] (by simp) (by simp) k
  refine Eq.trans hbits ?_
  match k with
  | 0 => simp [State.busy]
  | 1 | 2 | 3 | 4 | 5 | 6 => simp
  | 7 => simp [State.txqEmpty]
  | n + 8 => simp

theorem csrRead_irqEn_bit (s : State) (k : Nat) : (csrRead 0x010 s).getLsbD k =
    match k with
    | 1 => s.irqEn.doneIe
    | 2 => s.irqEn.errIe
    | 3 => s.irqEn.notifyIe
    | 4 => s.irqEn.progIe
    | _ => false := by
  have hbits := wordOfBits_getLsbD [(1, s.irqEn.doneIe), (2, s.irqEn.errIe), (3, s.irqEn.notifyIe),
    (4, s.irqEn.progIe)] (by simp) (by simp) k
  refine Eq.trans hbits ?_
  match k with
  | 0 | 1 | 2 | 3 | 4 => simp
  | n + 5 => simp

theorem csrRead_ctrl_bit (s : State) (k : Nat) : (csrRead 0x004 s).getLsbD k = (decide (k = 1) && s.regs.edge) := by
  refine (wordOfBits_getLsbD [(1, s.regs.edge)] (by simp) (by simp) k).trans ?_
  simp [eq_comm]

theorem irq_iff (s : State) : s.irq = true ↔
    (s.status.done = true ∧ s.irqEn.doneIe = true) ∨ (s.status.err = true ∧ s.irqEn.errIe = true) ∨
    (s.status.notify = true ∧ s.irqEn.notifyIe = true) ∨ (s.status.prog = true ∧ s.irqEn.progIe = true) := by
  simp [State.irq, or_assoc]

/-- R283 over the bits as the host reads them. -/
theorem irq_iff_readable (s : State) : s.irq = true ↔
    ∃ k, 1 ≤ k ∧ k ≤ 4 ∧ (csrRead 0x008 s).getLsbD k = true ∧ (csrRead 0x010 s).getLsbD k = true := by
  simp only [csrRead_status_bit, csrRead_irqEn_bit, irq_iff]
  constructor
  · rintro (h | h | h | h)
    · exact ⟨1, by decide, by decide, h⟩
    · exact ⟨2, by decide, by decide, h⟩
    · exact ⟨3, by decide, by decide, h⟩
    · exact ⟨4, by decide, by decide, h⟩
  · rintro ⟨k, hlo, hhi, h⟩
    interval_cases k
    · exact .inl h
    · exact .inr (.inl h)
    · exact .inr (.inr (.inl h))
    · exact .inr (.inr (.inr h))

/-- Settles O52, from the bits of the two words and the write of STATUS. -/
theorem statusReadsAndClears : Obligations.StatusReadsAndClears := by
  refine ⟨csrRead_status_bit, fun s v => writeStatus_eq v s, irq_iff_readable, fun s => ?_⟩
  show (writeStatus 0x1E s).irq = false
  rw [writeStatus_eq]
  simp [State.irq]

/-! ### Reads of single CSRs -/

theorem toWord_toNat_of_lt (n : Nat) (h : n < 2 ^ 32) : (toWord n).toNat = n := by
  rw [toWord, BitVec.toNat_ofNat, Nat.mod_eq_of_lt h]

theorem setWidth_toNat_of_le {w : Nat} (v : BitVec w) (h : w ≤ 32) : (v.setWidth 32).toNat = v.toNat := by
  rw [BitVec.toNat_setWidth, Nat.mod_eq_of_lt (v.isLt.trans_le (Nat.pow_le_pow_right (by decide) h))]

theorem errCodeByte_toNat (c : ErrCode) : (errCodeByte c).toNat = codeValue c := by cases c <;> rfl

theorem errWord_toNat (s : State) : s.errWord.toNat = codeValue s.error.code + 256 * s.error.op.toNat := by
  have hcode := (errCodeByte s.error.code).isLt
  have hop := s.error.op.isLt
  rw [State.errWord, toWord_toNat_of_lt _ (by omega), errCodeByte_toNat]
  omega

/-- Settles O53, CSR by CSR. -/
theorem readOnlyCsrsShowTheState : Obligations.ReadOnlyCsrsShowTheState := by
  intro s
  refine ⟨rfl, errWord_toNat s, rfl, rfl, rfl, rfl, rfl, setWidth_toNat_of_le _ (by decide), ?level,
    setWidth_toNat_of_le _ (by decide), rfl, setWidth_toNat_of_le _ (by decide), rfl, setWidth_toNat_of_le _ (by decide)⟩
  case level =>
    intro hlegal hbounded
    obtain ⟨_, _, ⟨_, hdepth⟩, _⟩ := hlegal
    have hlen : s.tx.queue.length < 256 := by have := hbounded.1; omega
    exact ⟨toWord_toNat_of_lt _ (by omega), hlen⟩

/-! ### What a write changes and what it does not (R20) -/

/-- A reserved offset reads 0 (R20). -/
theorem csrRead_reserved (off : Nat) (s : State) (h : 0x094 ≤ off) : csrRead off s = 0 := by
  unfold csrRead
  split
  case h_38 => rfl
  all_goals exact absurd h (by decide)

/-- CTRL alone shows EDGE. -/
theorem csrRead_edge_other (q : Nat) (b : Bool) (s : State) (h : q ≠ 0x004) :
    csrRead q { s with regs := { s.regs with edge := b } } = csrRead q s := by
  unfold csrRead
  split
  case h_2 => exact absurd rfl h
  all_goals rfl

/-- IRQ_EN alone shows the interrupt enables. -/
theorem csrRead_irqEn_other (q : Nat) (e : IrqEnable) (s : State) (h : q ≠ 0x010) :
    csrRead q { s with irqEn := e } = csrRead q s := by
  unfold csrRead
  split
  case h_5 => exact absurd rfl h
  all_goals rfl

/-- An operand CSR is shown at its own offset alone: of the reads, only the one that `h` excludes sees the field written. -/
theorem csrRead_writeOperand_other (q off : Nat) (v : Word) (s : State) (h : q ≠ off) :
    csrRead q { s with regs := writeOperand off v s.regs } = csrRead q s := by
  unfold writeOperand
  split
  case h_21 => rfl
  all_goals
    unfold csrRead
    split <;> first | contradiction | rfl

/-- An operand CSR reads what its field keeps of the datum. -/
theorem csrRead_writeOperand_same (p : Nat × Nat) (hp : p ∈ plainRwCsrs) (v : Word) (s : State) :
    csrRead p.1 { s with regs := writeOperand p.1 v s.regs } = (v.setWidth p.2).setWidth 32 := by
  simp only [plainRwCsrs, List.mem_cons, List.not_mem_nil, or_false] at hp
  rcases hp with rfl | rfl | rfl | rfl | rfl | rfl | rfl | rfl | rfl | rfl | rfl | rfl | rfl | rfl | rfl | rfl | rfl |
    rfl | rfl | rfl <;> simp [csrRead, writeOperand]

theorem plainRwCsrs_spec : ∀ p ∈ plainRwCsrs, p.1 ≠ 0x004 ∧ p.1 ≠ 0x008 ∧ p.1 ≠ 0x010 ∧ p.2 ≤ 32 := by decide

/-- Away from CTRL, STATUS and IRQ_EN a write is a write of an operand CSR or of nothing. -/
theorem csrWrite_operand (off : Nat) (v : Word) (s : State) (hctrl : off ≠ 0x004) (hstatus : off ≠ 0x008)
    (hirq : off ≠ 0x010) : csrWrite off v s = { s with regs := writeOperand off v s.regs } := by
  unfold csrWrite
  split
  · exact absurd rfl hctrl
  · exact absurd rfl hstatus
  · exact absurd rfl hirq
  · rfl

theorem csrWrite_ctrl (v : Word) (s : State) (h : v.getLsbD 0 = false) :
    csrWrite 0x004 v s = { s with regs := { s.regs with edge := v.getLsbD 1 } } := by
  show writeCtrl v s = _
  rw [writeCtrl, h]
  rfl

/-- An offset past the last CSR holds no operand. -/
theorem writeOperand_reserved (off : Nat) (v : Word) (r : OperandRegs) (h : 0x094 ≤ off) : writeOperand off v r = r := by
  unfold writeOperand
  split
  case h_21 => rfl
  all_goals exact absurd h (by decide)

/-- A one-field CSR's part of O51. -/
theorem csrWrite_plain (s : State) (v : Word) (p : Nat × Nat) (hp : p ∈ plainRwCsrs) :
    (csrRead p.1 (csrWrite p.1 v s)).toNat = v.toNat % 2 ^ p.2 ∧
    (∀ q, q ≠ p.1 → csrRead q (csrWrite p.1 v s) = csrRead q s) ∧ ∃ r, csrWrite p.1 v s = { s with regs := r } := by
  obtain ⟨hctrl, hstatus, hirq, hwidth⟩ := plainRwCsrs_spec p hp
  rw [csrWrite_operand p.1 v s hctrl hstatus hirq]
  refine ⟨?_, fun q hq => csrRead_writeOperand_other q p.1 v s hq, _, rfl⟩
  rw [csrRead_writeOperand_same p hp, setWidth_toNat_of_le _ hwidth, BitVec.toNat_setWidth]

/-- IRQ_EN's part of O51. -/
theorem csrWrite_irqEn_bit (s : State) (v : Word) (k : Nat) :
    (csrRead 0x010 (csrWrite 0x010 v s)).getLsbD k = (decide (1 ≤ k ∧ k ≤ 4) && v.getLsbD k) := by
  rw [csrRead_irqEn_bit]
  match k with
  | 0 | 1 | 2 | 3 | 4 => simp [csrWrite, irqEnableOf]
  | n + 5 => simp

/-- A write of a read-only or reserved offset changes nothing. -/
theorem csrWrite_ignored (s : State) (v : Word) (off : Nat)
    (h : off ∈ [0x000, 0x00C, 0x02C, 0x038, 0x03C, 0x040, 0x048, 0x04C, 0x06C, 0x070, 0x074, 0x078, 0x07C] ∨ 0x094 ≤ off) :
    csrWrite off v s = s := by
  rcases h with h | h
  · fin_cases h <;> rfl
  · rw [csrWrite_operand off v s (by omega) (by omega) (by omega), writeOperand_reserved off v _ h]

/-- Settles O51, by the access types. -/
theorem csrWritesFollowTheirAccessType : Obligations.CsrWritesFollowTheirAccessType := by
  refine ⟨csrWrite_plain, fun s v hsrst => ?ctrl, fun s v => ?irqEn, fun s v off h =>
    ⟨csrWrite_ignored s v off h, csrRead_reserved off s⟩⟩
  case ctrl =>
    rw [csrWrite_ctrl v s hsrst]
    exact ⟨rfl, csrRead_ctrl_bit _, fun q hq => csrRead_edge_other q _ s hq⟩
  case irqEn => exact ⟨csrWrite_irqEn_bit s v, fun q hq => csrRead_irqEn_other q _ s hq, _, rfl⟩

end Sys2Proof.Machine
end

section
/-! PROOFS. The step as each agent's turn (R224, R28, R84), and the waits that nothing but the Link ends (R36, R236). -/

namespace Sys2Proof.Machine

/-! ### Command words (R100 to R103) -/

/-- No field of an instruction that fits is lost in its word. -/
theorem decode_encode (i : Instr) (h : i.wellFormed = true) : decode (encode i) = .ok i := by
  unfold decode encode
  rw [fieldsOf_assemble]
  cases i with
  | palDist m | palNearest m =>
    exact (permitted_eq_ok _ _ _ _).2 ⟨by cases m <;> rfl, congrArg _ (metricOfBit_bitOfMetric m)⟩
  | packBw inv | packRed inv | pack4gray inv => exact (permitted_eq_ok _ _ _ _).2 ⟨by cases inv <;> rfl, rfl⟩
  | frameWr fop len ack =>
    have hlen : len < 32 := of_decide_eq_true h
    have hfield : (BitVec.ofNat 5 len).toNat = len := Nat.mod_eq_of_lt hlen
    exact (permitted_eq_ok _ _ _ _).2 ⟨by simp [Fields.within, fieldsOfInstr, plainFields],
      congrArg (fun n => Instr.frameWr fop n ack) hfield⟩
  | bulk fop => exact (permitted_eq_ok _ _ _ _).2 ⟨by simp [Fields.within, fieldsOfInstr, plainFields], rfl⟩
  | _ => rfl

/-! ### The step of each turn (R224, R28) -/

theorem step_command (s : State) (w : Word) (rest : List Turn) (i : Instr)
    (ha : s.agenda = .host (.write .w32 0x014 w) :: rest) (hd : decode w = .ok i) :
    step s = exec i { s with agenda := rest } := by
  rw [step_of_agenda s _ rest ha]
  exact (hostWrite_cmd w _).trans (acceptWord_ok w i _ hd)

/-- The word that stands for the host's next access is delivered first (R84). -/
theorem step_withFetchWord (s : State) (i : Instr) (h : i.wellFormed = true) :
    step (s.withFetchWord 32 (encode i).toNat) = exec i s := by
  have hword : BitVec.ofNat 32 ((encode i).toNat % 2 ^ 32) = encode i := by
    rw [Nat.mod_eq_of_lt (encode i).isLt, BitVec.ofNat_toNat, BitVec.setWidth_eq]
  refine step_command _ (encode i) s.agenda i ?_ (decode_encode i h)
  rw [State.withFetchWord, hword]
  rfl

/-- Settles O5, turn by turn. -/
theorem stepRunsTheDecodedCommand : Obligations.StepRunsTheDecodedCommand :=
  ⟨step_command, step_withFetchWord, fun s rest =>
    ⟨step_of_empty s, step_of_agenda s .engine rest, step_of_agenda s .tick rest,
      fun e => step_of_agenda s (.link e) rest⟩⟩

/-! ### A wait without a limit (R10, R36, R236) -/

/-- The Engine is held in a wait that no timeout can end, and no Link event or host access is due. -/
structure State.HeldForever (s : State) : Prop where
  waiting : s.waiting = true
  noLimit : s.latched.ackTimeout = 0
  turns : ∀ turn ∈ s.agenda, turn = .tick ∨ turn = .engine

/-- The Engine has no step in a wait whose condition does not hold (R224). -/
theorem engineTurn_of_waiting (s : State) (h : s.waiting = true) : engineTurn s = s := by
  have hrun := s.sessionRunning_of_waiting h
  obtain ⟨hphase, hsome⟩ := (sessionRunning_iff s).1 hrun
  obtain ⟨p, hp⟩ := Option.isSome_iff_exists.1 hsome
  rw [engineTurn_session s p hphase hp, SessionProgram.turn]
  rw [State.waiting, hrun, Bool.true_and] at h
  cases hw : s.engine.sched with
  | run => simp [hw] at h
  | wSpace =>
    have hfull : s.txqHasSpace = false := by simpa [hw] using h
    simp [hfull]
  | wAck =>
    have hpend : s.tx.ackPending = true := by simpa [hw] using h
    simp [hpend]
  | wDrain =>
    have hleft : s.drained = false := by simpa [hw] using h
    simp [hleft]

/-- Counting ELAPSED touches the progress registers only (R235). -/
theorem countElapsed_progress (s : State) : ∃ p, s.countElapsed = { s with progress := p } := by
  unfold State.countElapsed
  split
  · exact ⟨_, rfl⟩
  · exact ⟨s.progress, rfl⟩

/-- With ACK_TIMEOUT 0 a counted wait never times out (R36, R236). -/
theorem countWait_of_unlimited (s : State) (hwait : s.waiting = true) (hlimit : s.latched.ackTimeout = 0) :
    s.countWait = { s with tx := { s.tx with waitCnt := s.tx.waitCnt + 1 } } := by
  unfold State.countWait
  rw [if_pos hwait]
  exact if_neg fun h => h.1 hlimit

/-- A tick in a wait without a limit ends the connect pulse and counts, and that is all. -/
theorem clockTick_of_unlimited (s : State) (hwait : s.waiting = true) (hlimit : s.latched.ackTimeout = 0) :
    ∃ p, clockTick s =
      { s with connectReq := false, progress := p, tx := { s.tx with waitCnt := s.tx.waitCnt + 1 } } := by
  obtain ⟨p, hp⟩ := countElapsed_progress { s with connectReq := false }
  refine ⟨p, ?_⟩
  rw [clockTick, hp]
  exact countWait_of_unlimited _ hwait hlimit

/-- One step keeps the wait, TXQ, ERR and STATUS. -/
theorem State.HeldForever.step {s : State} (h : s.HeldForever) :
    ∃ u, Machine.step s = .next u ∧ u.HeldForever ∧ u.tx.queue = s.tx.queue ∧ u.error = s.error ∧ u.status = s.status := by
  cases ha : s.agenda with
  | nil => exact ⟨s, by rw [step_of_empty s ha, engineTurn_of_waiting s h.waiting], h, rfl, rfl, rfl⟩
  | cons turn rest =>
    have hrest : ∀ turn ∈ rest, turn = .tick ∨ turn = .engine := fun u hu =>
      h.turns u (by rw [ha]; exact List.mem_cons_of_mem _ hu)
    rw [step_of_agenda s turn rest ha]
    rcases h.turns turn (by rw [ha]; exact List.mem_cons_self) with rfl | rfl
    · obtain ⟨p, hp⟩ := clockTick_of_unlimited { s with agenda := rest } h.waiting h.noLimit
      exact ⟨_, congrArg Host.Outcome.next hp, ⟨h.waiting, h.noLimit, hrest⟩, rfl, rfl, rfl⟩
    · exact ⟨{ s with agenda := rest }, congrArg Host.Outcome.next (engineTurn_of_waiting { s with agenda := rest } h.waiting),
        ⟨h.waiting, h.noLimit, hrest⟩, rfl, rfl, rfl⟩

/-- A run of `n + 1` steps is a step and a run of `n`. -/
theorem run_succ (M : Host.Core) (n : Nat) (s u : M.State) (h : M.step s = .next u) : M.run (n + 1) s = M.run n u := by
  rw [Host.Core.run, h]

theorem State.HeldForever.run {s : State} (h : s.HeldForever) (n : Nat) :
    ∃ u, Host.Core.run core n s = .next u ∧ u.HeldForever ∧ u.tx.queue = s.tx.queue ∧ u.error = s.error ∧
      u.status = s.status := by
  induction n generalizing s with
  | zero => exact ⟨s, rfl, h, rfl, rfl, rfl⟩
  | succ n ih =>
    obtain ⟨t, hstep, ht, hq, he, hs⟩ := h.step
    obtain ⟨u, hrun, hu, hq', he', hs'⟩ := ih ht
    exact ⟨u, (run_succ core n s t hstep).trans hrun, hu, hq'.trans hq, he'.trans he, hs'.trans hs⟩

/-- Settles O35, by induction on the number of steps. -/
theorem noTimeoutWithoutALimit : Obligations.NoTimeoutWithoutALimit := by
  intro s n hwait hlimit hturns
  obtain ⟨u, hrun, hu, hq, he, hs⟩ := State.HeldForever.run ⟨hwait, hlimit, hturns⟩ n
  exact ⟨u, hrun, hu.waiting, hq, he, hs⟩

end Sys2Proof.Machine
end

section
/-! PROOFS. The host's port on the bus (20_memory.md R70 to R79): which accesses are bus errors, what a legal access does in
each region, and the bytes that a memory access stores or assembles. -/

namespace Sys2Proof.Machine

/-! ### Legal accesses (R75, R76) -/

/-- The model's map of the bus has a place for exactly the accesses of R75's table. -/
theorem locate_eq_none_iff (c : Config) (width : Width) (addr : Word) :
    locate c width addr = none ↔ ¬accessLegal c width addr.toNat := by
  constructor
  · rintro hnone hlegal
    by_cases hmem : 0x1000 ≤ addr.toNat
    · obtain ⟨sp, off, hl⟩ := locate_of_legal c width addr hmem hlegal
      rw [hnone] at hl
      cases hl
    · obtain ⟨haligned, ⟨rfl, hcsr⟩ | ⟨hpack, _⟩ | ⟨hpix, _⟩⟩ := hlegal
      · rw [locate_of_csr c addr hcsr haligned] at hnone
        cases hnone
      · omega
      · omega
  · intro hillegal
    refine Option.eq_none_iff_forall_ne_some.2 fun p hp => hillegal ?_
    obtain ⟨haligned, ⟨hw, hcsr, -⟩ | ⟨hlo, hhi, -⟩ | ⟨hlo, hhi, -⟩⟩ := locate_cases c width addr p hp
    · exact ⟨haligned, .inl ⟨hw, hcsr⟩⟩
    · exact ⟨haligned, .inr (.inl ⟨hlo, hhi⟩)⟩
    · exact ⟨haligned, .inr (.inr ⟨hlo, hhi⟩)⟩

theorem locate_isSome_of_legal (c : Config) (width : Width) (addr : Word) (h : accessLegal c width addr.toNat) :
    ∃ p, locate c width addr = some p :=
  Option.ne_none_iff_exists'.1 fun hnone => (locate_eq_none_iff c width addr).1 hnone h

/-- What lands in a memory is an address beyond the CSR region. -/
theorem locate_mem_above (c : Config) (width : Width) (addr : Word) (sp : Space) (off : Nat)
    (h : locate c width addr = some (.mem sp off)) : 0x1000 ≤ addr.toNat := by
  obtain ⟨_, ⟨_, _, hp⟩ | ⟨hlo, _, _⟩ | ⟨hlo, _, _⟩⟩ := locate_cases c width addr _ h
  · cases hp
  · simp only [packBase] at hlo; omega
  · simp only [pixBase] at hlo; omega

/-- The CSR region takes words only. -/
theorem locate_byte_ne_csr (c : Config) (addr : Word) (off : Nat) : locate c .w8 addr ≠ some (.csr off) := by
  intro h
  obtain ⟨_, ⟨hw, _⟩ | ⟨_, _, hp⟩ | ⟨_, _, hp⟩⟩ := locate_cases c .w8 addr _ h
  · cases hw
  · cases hp
  · cases hp

/-! ### A host access by where it lands -/

theorem hostRead_unmapped (width : Width) (addr : Word) (s : State) (h : locate s.cfg width addr = none) :
    hostRead width addr s = .fault .busError := by
  simp only [hostRead, h]

theorem hostRead_csr (width : Width) (addr : Word) (s : State) (off : Nat) (h : locate s.cfg width addr = some (.csr off)) :
    hostRead width addr s = .next { s with busData := csrRead off s } := by
  simp only [hostRead, h]

theorem hostRead_busy (width : Width) (addr : Word) (s : State) (sp : Space) (off : Nat)
    (h : locate s.cfg width addr = some (.mem sp off)) (hbusy : s.busy = true) :
    hostRead width addr s = .next { s.hazard with busData := 0 } := by
  simp only [hostRead, h, hbusy, if_true]

theorem hostRead_idle (width : Width) (addr : Word) (s : State) (sp : Space) (off : Nat)
    (h : locate s.cfg width addr = some (.mem sp off)) (hidle : s.busy = false) :
    hostRead width addr s = .next { s with busData := toWord (s.bufs.readAt sp off (widthBytes width)) } := by
  simp [hostRead, h, hidle]

theorem hostWrite_unmapped (width : Width) (addr data : Word) (s : State) (h : locate s.cfg width addr = none) :
    hostWrite width addr data s = .fault .busError := by
  simp only [hostWrite, h]

theorem hostWrite_csr (width : Width) (addr data : Word) (s : State) (off : Nat)
    (h : locate s.cfg width addr = some (.csr off)) :
    hostWrite width addr data s = if off = 0x014 then acceptWord data s else .next (csrWrite off data s) := by
  simp only [hostWrite, h]

theorem hostWrite_busy (width : Width) (addr data : Word) (s : State) (sp : Space) (off : Nat)
    (h : locate s.cfg width addr = some (.mem sp off)) (hbusy : s.busy = true) :
    hostWrite width addr data s = .next s.hazard := by
  simp only [hostWrite, h, hbusy, if_true]

theorem hostWrite_idle (width : Width) (addr data : Word) (s : State) (sp : Space) (off : Nat)
    (h : locate s.cfg width addr = some (.mem sp off)) (hidle : s.busy = false) :
    hostWrite width addr data s =
      .next { s with bufs := s.bufs.writeAt sp off (widthBytes width) data.toNat } := by
  simp [hostWrite, h, hidle]

/-! ### When the machine stops (R76) -/

/-- R75's table for an access of either direction. -/
def Access.Legal (c : Config) : Access → Prop
  | .read width addr => accessLegal c width addr.toNat
  | .write width addr _ => accessLegal c width addr.toNat

/-- A word written to CMD is accepted, rejected or illegal, and the machine goes on. -/
theorem acceptWord_total (w : Word) (s : State) : ∃ t, acceptWord w s = .next t := by
  cases hd : decode w with
  | ok i => rw [acceptWord_ok w i s hd]; exact exec_total i s
  | error e => exact ⟨_, acceptWord_error w e s hd⟩

theorem hostAccess_of_legal (a : Access) (s : State) (h : a.Legal s.cfg) : ∃ t, hostAccess a s = .next t := by
  cases a with
  | read width addr =>
    obtain ⟨⟨off⟩ | ⟨sp, off⟩, hl⟩ := locate_isSome_of_legal s.cfg width addr h
    · exact ⟨_, hostRead_csr width addr s off hl⟩
    · cases hb : s.busy with
      | true => exact ⟨_, hostRead_busy width addr s sp off hl hb⟩
      | false => exact ⟨_, hostRead_idle width addr s sp off hl hb⟩
  | write width addr data =>
    obtain ⟨⟨off⟩ | ⟨sp, off⟩, hl⟩ := locate_isSome_of_legal s.cfg width addr h
    · rw [hostAccess, hostWrite_csr width addr data s off hl]
      split
      · exact acceptWord_total data s
      · exact ⟨_, rfl⟩
    · cases hb : s.busy with
      | true => exact ⟨_, hostWrite_busy width addr data s sp off hl hb⟩
      | false => exact ⟨_, hostWrite_idle width addr data s sp off hl hb⟩

theorem hostAccess_of_illegal (a : Access) (s : State) (h : ¬a.Legal s.cfg) : hostAccess a s = .fault .busError := by
  cases a with
  | read width addr => exact hostRead_unmapped width addr s ((locate_eq_none_iff s.cfg width addr).2 h)
  | write width addr data => exact hostWrite_unmapped width addr data s ((locate_eq_none_iff s.cfg width addr).2 h)

/-- The two outcomes of a step: it goes on, or it is a host access outside R75's table and a bus error. -/
theorem step_outcome (s : State) :
    ((∃ t, step s = .next t) ∧ ∀ a rest, s.agenda = .host a :: rest → a.Legal s.cfg) ∨
    (step s = .fault .busError ∧ ∃ a rest, s.agenda = .host a :: rest ∧ ¬a.Legal s.cfg) := by
  cases ha : s.agenda with
  | nil => exact .inl ⟨⟨_, step_of_empty s ha⟩, fun a rest h => by cases h⟩
  | cons turn rest =>
    rw [step_of_agenda s turn rest ha]
    cases turn with
    | host a =>
      by_cases hlegal : a.Legal s.cfg
      · exact .inl ⟨hostAccess_of_legal a _ hlegal, fun a' rest' h => by cases h; exact hlegal⟩
      · exact .inr ⟨hostAccess_of_illegal a _ hlegal, a, rest, rfl, hlegal⟩
    | engine | link | tick => exact .inl ⟨⟨_, rfl⟩, fun a' rest' h => by cases h⟩

/-- An illegal access stands first on the agenda, said by direction. -/
theorem illegal_head_iff (s : State) :
    (∃ a rest, s.agenda = .host a :: rest ∧ ¬a.Legal s.cfg) ↔
    ∃ rest width addr, ¬accessLegal s.cfg width addr.toNat ∧
      (s.agenda = .host (.read width addr) :: rest ∨ ∃ data, s.agenda = .host (.write width addr data) :: rest) := by
  constructor
  · rintro ⟨a, rest, ha, hillegal⟩
    cases a with
    | read width addr => exact ⟨rest, width, addr, hillegal, .inl ha⟩
    | write width addr data => exact ⟨rest, width, addr, hillegal, .inr ⟨data, ha⟩⟩
  · rintro ⟨rest, width, addr, hillegal, ha | ⟨data, ha⟩⟩
    · exact ⟨.read width addr, rest, ha, hillegal⟩
    · exact ⟨.write width addr data, rest, ha, hillegal⟩

/-- Settles O47: a step has two outcomes, told apart by the first turn of the agenda. -/
theorem stopsExactlyOnIllegalAccess : Obligations.StopsExactlyOnIllegalAccess := by
  intro s
  refine ⟨fun f => ?_, fun r h => ?_⟩
  · rw [← illegal_head_iff]
    rcases step_outcome s with ⟨⟨t, ht⟩, hlegal⟩ | ⟨hfault, hillegal⟩
    · rw [ht]
      constructor
      · intro h; cases h
      · rintro ⟨_, a, rest, ha, hillegal⟩
        exact absurd (hlegal a rest ha) hillegal
    · rw [hfault]
      exact ⟨fun h => by cases h; exact ⟨rfl, hillegal⟩, fun h => congrArg _ h.1.symm⟩
  · rcases step_outcome s with ⟨⟨t, ht⟩, _⟩ | ⟨hfault, _⟩
    · rw [ht] at h; cases h
    · rw [hfault] at h; cases h

/-! ### A read or a write as the next turn (R78, R79) -/

theorem step_read (s : State) (rest : List Turn) (width : Width) (addr : Word)
    (ha : s.agenda = .host (.read width addr) :: rest) : step s = hostRead width addr { s with agenda := rest } :=
  step_of_agenda s _ rest ha

theorem step_write (s : State) (rest : List Turn) (width : Width) (addr data : Word)
    (ha : s.agenda = .host (.write width addr data) :: rest) :
    step s = hostWrite width addr data { s with agenda := rest } :=
  step_of_agenda s _ rest ha

/-- No CSR shows the turns to come. -/
theorem csrRead_agenda (off : Nat) (s : State) (rest : List Turn) : csrRead off { s with agenda := rest } = csrRead off s :=
  rfl

/-- Settles O48, region by region. -/
theorem memoryAccessWhileBusyIsAHazard : Obligations.MemoryAccessWhileBusyIsAHazard := by
  refine ⟨fun s rest width addr hbusy hmem hlegal => ?memory, fun s rest addr hcsr haligned => ?csr⟩
  case memory =>
    obtain ⟨sp, off, hl⟩ := locate_of_legal s.cfg width addr hmem hlegal
    refine ⟨fun ha => ?_, fun data ha => ?_⟩
    · exact (step_read s rest width addr ha).trans (hostRead_busy width addr { s with agenda := rest } sp off hl hbusy)
    · exact (step_write s rest width addr data ha).trans
        (hostWrite_busy width addr data { s with agenda := rest } sp off hl hbusy)
  case csr =>
    have hl : locate s.cfg .w32 addr = some (.csr addr.toNat) := locate_of_csr s.cfg addr hcsr haligned
    refine ⟨fun ha => ?_, fun data hcmd ha => ?_⟩
    · rw [step_read s rest .w32 addr ha, hostRead_csr .w32 addr { s with agenda := rest } addr.toNat hl, csrRead_agenda]
    · rw [step_write s rest .w32 addr data ha, hostWrite_csr .w32 addr data { s with agenda := rest } addr.toNat hl,
        if_neg hcmd]

/-- Settles O49: such a read is answered from a register or from an idle block's memory. -/
theorem readsHaveNoSideEffect : Obligations.ReadsHaveNoSideEffect := by
  intro s rest width addr ha hlegal hopen
  rw [step_read s rest width addr ha]
  obtain ⟨⟨off⟩ | ⟨sp, off⟩, hl⟩ := locate_isSome_of_legal s.cfg width addr hlegal
  · exact ⟨_, hostRead_csr width addr { s with agenda := rest } off hl⟩
  · have hidle : s.busy = false := hopen.resolve_right fun hcsr => by
      have := locate_mem_above s.cfg width addr sp off hl
      omega
    exact ⟨_, hostRead_idle width addr { s with agenda := rest } sp off hl hidle⟩

/-! ### Bytes stored and bytes assembled (R9, R72, R77) -/

theorem two_pow_next_byte (n : Nat) : 2 ^ (8 * (n + 1)) = 256 * 2 ^ (8 * n) := by
  rw [Nat.mul_succ, pow_add, mul_comm]
  rfl

/-- Each byte stored holds the next eight bits of the datum. -/
theorem memByte_memWrite_same (sp : Space) (m : Memory) (a n v k : Nat) (h : k < n) :
    memByte sp (memWrite m a n v) (a + k) = BitVec.ofNat 8 (v / 2 ^ (8 * k)) := by
  induction n generalizing m a v k with
  | zero => omega
  | succ n ih =>
    rw [memWrite]
    cases k with
    | zero => simp [memByte_memWrite_other sp (memPut m a _) (a + 1) n (v / 256) a (by omega)]
    | succ k =>
      rw [show a + (k + 1) = a + 1 + k by omega, ih _ _ _ _ (by omega), Nat.div_div_eq_div_mul, ← two_pow_next_byte]

theorem memRead_lt (sp : Space) (m : Memory) (a n : Nat) : memRead sp m a n < 2 ^ (8 * n) := by
  induction n generalizing a with
  | zero => exact Nat.one_pos
  | succ n ih =>
    have hbyte := (memByte sp m a).isLt
    have hrest := ih (a + 1)
    rw [memRead, two_pow_next_byte]
    omega

/-- A value read is its bytes by their weights, the lowest address in the lowest bits. -/
theorem memRead_eq_sum (sp : Space) (m : Memory) (a n : Nat) :
    memRead sp m a n = ((List.range n).map fun k => (memByte sp m (a + k)).toNat * 2 ^ (8 * k)).sum := by
  induction n generalizing a with
  | zero => rfl
  | succ n ih =>
    have hweight (k : Nat) : (memByte sp m (a + (k + 1))).toNat * 2 ^ (8 * (k + 1)) =
        256 * ((memByte sp m (a + 1 + k)).toNat * 2 ^ (8 * k)) := by
      rw [two_pow_next_byte, Nat.add_right_comm a 1 k, Nat.mul_left_comm]
      rfl
    rw [memRead, ih, List.range_succ_eq_map, List.map_cons, List.map_map, List.sum_cons, ← List.sum_map_mul_left]
    simp only [Function.comp_def, Nat.succ_eq_add_one, hweight, Nat.mul_zero, pow_zero, Nat.mul_one, Nat.add_zero]

/-! ### The two memories as places on the bus (R70) -/

/-- The bytes of one of the two memories. -/
def Buffers.mem (b : Buffers) : Space → Memory
  | .pixmem => b.pix
  | .packmem => b.pack

/-- The base of a memory's region (R70). -/
def regionBase : Space → Nat
  | .pixmem => pixBase
  | .packmem => packBase

theorem Buffers.readAt_eq (b : Buffers) (sp : Space) (off n : Nat) : b.readAt sp off n = memRead sp (b.mem sp) off n := by
  cases sp <;> rfl

@[simp] theorem Buffers.mem_writeAt_same (b : Buffers) (sp : Space) (off n v : Nat) :
    (b.writeAt sp off n v).mem sp = memWrite (b.mem sp) off n v := by
  cases sp <;> rfl

theorem Buffers.mem_writeAt_other (b : Buffers) (sp sp' : Space) (off n v : Nat) (h : sp' ≠ sp) :
    (b.writeAt sp off n v).mem sp' = b.mem sp' := by
  cases sp with
  | pixmem => cases sp' with
    | pixmem => exact absurd rfl h
    | packmem => rfl
  | packmem => cases sp' with
    | pixmem => rfl
    | packmem => exact absurd rfl h

/-- An access that lands in a memory lies wholly within its region, at that distance from the base. -/
theorem locate_mem_spec (c : Config) (width : Width) (addr : Word) (sp : Space) (off : Nat)
    (h : locate c width addr = some (.mem sp off)) :
    addr.toNat = regionBase sp + off ∧ off + widthBytes width ≤ regionSize c sp := by
  refine ⟨?_, locate_mem_fits c width addr sp off h⟩
  obtain ⟨_, ⟨_, _, hp⟩ | ⟨hlo, _, hp⟩ | ⟨hlo, _, hp⟩⟩ := locate_cases c width addr _ h
  · cases hp
  · cases hp; exact (Nat.add_sub_cancel' hlo).symm
  · cases hp; exact (Nat.add_sub_cancel' hlo).symm

/-! ### Reads after a write (R77, R78) -/

/-- No datum of the bus is lost in the host's word. -/
theorem toWord_readAt_toNat (b : Buffers) (sp : Space) (off : Nat) (width : Width) :
    (toWord (b.readAt sp off (widthBytes width))).toNat = b.readAt sp off (widthBytes width) := by
  have hwidth : 8 * widthBytes width ≤ 32 := by cases width <;> decide
  rw [Buffers.readAt_eq]
  exact toWord_toNat_of_lt _ ((memRead_lt sp _ off _).trans_le (Nat.pow_le_pow_right (by decide) hwidth))

theorem Buffers.readAt_writeAt_same (b : Buffers) (sp : Space) (off n v : Nat) :
    (b.writeAt sp off n v).readAt sp off n = v % 2 ^ (8 * n) := by
  rw [Buffers.readAt_eq, Buffers.mem_writeAt_same, memRead_memWrite]

/-- A byte of the bus outside a write reads as before; the two accesses may be in one memory or in both. -/
theorem Buffers.readAt_writeAt_outside (b : Buffers) (c : Config) (width : Width) (addr addr' : Word) (sp sp' : Space)
    (off off' v : Nat) (hl : locate c width addr = some (.mem sp off)) (hl' : locate c .w8 addr' = some (.mem sp' off'))
    (hout : addr'.toNat < addr.toNat ∨ addr.toNat + widthBytes width ≤ addr'.toNat) :
    (b.writeAt sp off (widthBytes width) v).readAt sp' off' 1 = b.readAt sp' off' 1 := by
  obtain ⟨haddr, -⟩ := locate_mem_spec c width addr sp off hl
  obtain ⟨haddr', -⟩ := locate_mem_spec c .w8 addr' sp' off' hl'
  simp only [Buffers.readAt_eq, memRead]
  by_cases hsp : sp' = sp
  · subst hsp
    rw [Buffers.mem_writeAt_same, memByte_memWrite_other sp' (b.mem sp') off _ v off' (by omega)]
  · rw [Buffers.mem_writeAt_other b sp sp' off _ v hsp]

/-! ### The bytes at bus addresses (R70, R72) -/

/-- The memory that a bus address beyond the CSR region is in, when the two regions do not overlap (R5, R70). -/
def spaceAt (a : Nat) : Space := if a < pixBase then .packmem else .pixmem

theorem hostByte_eq (b : Buffers) (a : Nat) :
    hostByte b a = memByte (spaceAt a) (b.mem (spaceAt a)) (a - regionBase (spaceAt a)) := by
  by_cases h : a < pixBase
  · have hsp : spaceAt a = .packmem := if_pos h
    rw [hsp]
    exact if_pos h
  · have hsp : spaceAt a = .pixmem := if_neg h
    rw [hsp]
    exact if_neg h

/-- In a legal configuration PACKMEM ends where PIXMEM begins, or before it. -/
theorem spaceAt_eq (c : Config) (hc : c.legal) (sp : Space) (off : Nat) (h : off < regionSize c sp) :
    spaceAt (regionBase sp + off) = sp := by
  obtain ⟨_, ⟨_, hpack⟩, _⟩ := hc
  cases sp with
  | pixmem => exact if_neg (Nat.not_lt.2 (Nat.le_add_right pixBase off))
  | packmem =>
    refine if_pos ?_
    simp only [regionSize, regionBase, packBase, pixBase] at h ⊢
    omega

theorem hostByte_region (c : Config) (hc : c.legal) (b : Buffers) (sp : Space) (off : Nat) (h : off < regionSize c sp) :
    hostByte b (regionBase sp + off) = memByte sp (b.mem sp) off := by
  rw [hostByte_eq, spaceAt_eq c hc sp off h, Nat.add_sub_cancel_left]

theorem regionBase_spaceAt_le (a : Nat) (h : packBase ≤ a) : regionBase (spaceAt a) ≤ a := by
  unfold spaceAt
  split
  next => exact h
  next hpix => exact Nat.not_lt.1 hpix

/-- Byte `k` of a datum goes to the `k`-th address from the write's own. -/
theorem hostByte_writeAt_inside (c : Config) (hc : c.legal) (b : Buffers) (sp : Space) (off n k : Nat) (data : Word)
    (hfit : off + n ≤ regionSize c sp) (hk : k < n) :
    hostByte (b.writeAt sp off n data.toNat) (regionBase sp + off + k) = data.extractLsb' (8 * k) 8 := by
  rw [Nat.add_assoc, hostByte_region c hc _ sp (off + k) (by omega), Buffers.mem_writeAt_same,
    memByte_memWrite_same sp _ off n _ k hk, BitVec.extractLsb', Nat.shiftRight_eq_div_pow]

theorem hostByte_writeAt_outside (b : Buffers) (sp : Space) (off n v a : Nat) (ha : packBase ≤ a)
    (hout : ¬(regionBase sp + off ≤ a ∧ a < regionBase sp + off + n)) :
    hostByte (b.writeAt sp off n v) a = hostByte b a := by
  have hbase := regionBase_spaceAt_le a ha
  rw [hostByte_eq, hostByte_eq]
  by_cases hsp : spaceAt a = sp
  · rw [hsp] at hbase ⊢
    rw [Buffers.mem_writeAt_same, memByte_memWrite_other sp _ off n v _ (by omega)]
  · rw [Buffers.mem_writeAt_other b sp _ off n v hsp]

/-- What a memory write leaves at every address beyond the CSR region. -/
theorem hostByte_writeAt (c : Config) (hc : c.legal) (b : Buffers) (sp : Space) (off n : Nat) (data : Word)
    (hfit : off + n ≤ regionSize c sp) (a : Nat) (ha : packBase ≤ a) :
    hostByte (b.writeAt sp off n data.toNat) a =
      if regionBase sp + off ≤ a ∧ a < regionBase sp + off + n then data.extractLsb' (8 * (a - (regionBase sp + off))) 8
      else hostByte b a := by
  split
  next hin =>
    obtain ⟨k, rfl⟩ := Nat.exists_eq_add_of_le hin.1
    rw [hostByte_writeAt_inside c hc b sp off n k data hfit (by omega), Nat.add_sub_cancel_left]
  next hout => exact hostByte_writeAt_outside b sp off n _ a ha hout

/-- A memory read is the little-endian value of the bytes at its addresses. -/
theorem readAt_eq_hostBytes (c : Config) (hc : c.legal) (b : Buffers) (sp : Space) (off n : Nat)
    (hfit : off + n ≤ regionSize c sp) :
    b.readAt sp off n = ((List.range n).map fun k => (hostByte b (regionBase sp + off + k)).toNat * 2 ^ (8 * k)).sum := by
  rw [Buffers.readAt_eq, memRead_eq_sum]
  refine congrArg List.sum (List.map_congr_left fun k hk => ?_)
  have hk := List.mem_range.1 hk
  rw [Nat.add_assoc, hostByte_region c hc b sp (off + k) (by omega)]

/-! ### Memory accesses of an idle block -/

/-- A memory write that went through stored its bytes and left the map of the bus, the idle block and the agenda. -/
theorem step_write_idle (s t : State) (rest : List Turn) (width : Width) (addr data : Word) (hidle : s.busy = false)
    (hmem : 0x1000 ≤ addr.toNat) (ha : s.agenda = .host (.write width addr data) :: rest) (h : step s = .next t) :
    ∃ sp off, locate s.cfg width addr = some (.mem sp off) ∧ t.cfg = s.cfg ∧ t.busy = false ∧ t.agenda = rest ∧
      t.bufs = s.bufs.writeAt sp off (widthBytes width) data.toNat := by
  rw [step_write s rest width addr data ha] at h
  have hlegal : accessLegal s.cfg width addr.toNat := by
    by_contra hillegal
    have hfault := hostAccess_of_illegal (.write width addr data) { s with agenda := rest } hillegal
    cases h.symm.trans hfault
  obtain ⟨sp, off, hl⟩ := locate_of_legal s.cfg width addr hmem hlegal
  have hnext := h.symm.trans (hostWrite_idle width addr data { s with agenda := rest } sp off hl hidle)
  injection hnext with hnext
  subst hnext
  exact ⟨sp, off, hl, rfl, hidle, rfl, rfl⟩

/-- A write and then a read of the same place, in any configuration. -/
theorem write_then_read (s t u : State) (rest : List Turn) (width : Width) (addr data : Word) (hidle : s.busy = false)
    (hmem : 0x1000 ≤ addr.toNat)
    (ha : s.agenda = .host (.write width addr data) :: .host (.read width addr) :: rest) (ht : step s = .next t)
    (hu : step t = .next u) :
    u.busData.toNat = data.toNat % 2 ^ (8 * widthBytes width) ∧
    ∀ b : Word, accessLegal s.cfg .w8 b.toNat →
      b.toNat < addr.toNat ∨ addr.toNat + widthBytes width ≤ b.toNat →
      ∃ v, hostRead .w8 b s = .next { s with busData := v } ∧ hostRead .w8 b t = .next { t with busData := v } := by
  obtain ⟨sp, off, hl, hcfg, hidle', ha', hbufs⟩ := step_write_idle s t _ width addr data hidle hmem ha ht
  refine ⟨?value, fun b hb hout => ?others⟩
  case value =>
    rw [step_read t rest width addr ha'] at hu
    have hread := hu.symm.trans (hostRead_idle width addr { t with agenda := rest } sp off (by rw [← hl, ← hcfg]) hidle')
    injection hread with hread
    subst hread
    rw [toWord_readAt_toNat, hbufs, Buffers.readAt_writeAt_same]
  case others =>
    obtain ⟨p, hp⟩ := locate_isSome_of_legal s.cfg .w8 b hb
    cases p with
    | csr off' => exact absurd hp (locate_byte_ne_csr s.cfg b off')
    | mem sp' off' =>
      have hsame : t.bufs.readAt sp' off' 1 = s.bufs.readAt sp' off' 1 := by
        rw [hbufs, Buffers.readAt_writeAt_outside s.bufs s.cfg width addr b sp sp' off off' _ hl hp hout]
      refine ⟨_, hostRead_idle .w8 b s sp' off' hp hidle, ?_⟩
      rw [hostRead_idle .w8 b t sp' off' (by rw [hcfg, hp]) hidle', widthBytes, hsame]

/-- Settles O50: the read after the write, then each access by the bytes at its addresses. -/
theorem memoryWriteThenReadReturnsIt : Obligations.MemoryWriteThenReadReturnsIt := by
  refine ⟨write_then_read, fun s rest width addr hc hidle hmem hlegal => ?_⟩
  obtain ⟨sp, off, hl⟩ := locate_of_legal s.cfg width addr hmem hlegal
  obtain ⟨haddr, hfit⟩ := locate_mem_spec s.cfg width addr sp off hl
  refine ⟨fun data ha => ?write, fun ha => ?read⟩
  case write =>
    refine ⟨_, (step_write s rest width addr data ha).trans
      (hostWrite_idle width addr data { s with agenda := rest } sp off hl hidle), fun a hbeyond => ?_⟩
    rw [haddr]
    exact hostByte_writeAt s.cfg hc s.bufs sp off _ data hfit a hbeyond
  case read =>
    refine ⟨_, (step_read s rest width addr ha).trans
      (hostRead_idle width addr { s with agenda := rest } sp off hl hidle), ?_⟩
    rw [toWord_readAt_toNat, haddr]
    exact readAt_eq_hostBytes s.cfg hc s.bufs sp off _ hfit

end Sys2Proof.Machine
end

section
/-! PROOFS. The command word (30_encoding.md R100 to R104): the decoder as a table of formats, the bits that each row of the
opcode table tests, and the words on which decoder and encoder agree. -/

namespace Sys2Proof

/-! ### The fields an opcode permits (R102) -/

/-- OP and the fields that `p` lets be nonzero, every other bit 0. -/
def Fields.restrict (f : Fields) (p : Permits) : Fields where
  op := f.op
  fop := if p.fop then f.fop else 0
  len := if p.len then f.len else 0
  reservedLow := 0
  ack := p.ack && f.ack
  inv := p.inv && f.inv
  metric := p.metric && f.metric
  reservedHigh := 0

/-- R102 and R104 field by field. -/
theorem Fields.within_iff (f : Fields) (p : Permits) : f.within p = true ↔
    f.reservedLow = 0 ∧ f.reservedHigh = 0 ∧ (p.fop = true ∨ f.fop = 0) ∧ (p.len = true ∨ f.len = 0) ∧
      (p.ack = true ∨ f.ack = false) ∧ (p.inv = true ∨ f.inv = false) ∧ (p.metric = true ∨ f.metric = false) := by
  simp [Fields.within, and_assoc]

theorem ite_else_zero_of_permitted {n : Nat} {b : Bool} {x : BitVec n} (h : b = true ∨ x = 0) :
    (if b then x else 0) = x := by
  rcases h with rfl | rfl <;> simp

theorem and_of_permitted {b x : Bool} (h : b = true ∨ x = false) : (b && x) = x := by
  rcases h with rfl | rfl <;> simp

/-- A word within a format loses nothing when it is restricted to the format's fields. -/
theorem Fields.restrict_of_within (f : Fields) (p : Permits) (h : f.within p = true) : f.restrict p = f := by
  obtain ⟨hlow, hhigh, hfop, hlen, hack, hinv, hmetric⟩ := (f.within_iff p).1 h
  obtain ⟨op, fop, len, low, ack, inv, metric, high⟩ := f
  simp only [Fields.restrict, Fields.mk.injEq, true_and]
  exact ⟨ite_else_zero_of_permitted hfop, ite_else_zero_of_permitted hlen, hlow.symm, and_of_permitted hack,
    and_of_permitted hinv, and_of_permitted hmetric, hhigh.symm⟩

/-! ### The eighteen formats (R100 to R103) -/

/-- One command's format: its OP byte, the fields it permits, and the instruction that a word of the format stands for. -/
structure CommandFormat where
  op : Byte
  permits : Permits
  build : Fields → Instr

/-- The eighteen formats, in the order of R103. -/
def commandFormats : List CommandFormat :=
  [⟨0x00, {}, fun _ => .nop⟩,
   ⟨0x10, {}, fun _ => .luma⟩,
   ⟨0x20, {}, fun _ => .dthNone⟩,
   ⟨0x21, {}, fun _ => .dthGray⟩,
   ⟨0x22, {}, fun _ => .dthBayer⟩,
   ⟨0x23, {}, fun _ => .dthFs⟩,
   ⟨0x24, {}, fun _ => .dthAtk⟩,
   ⟨0x25, {}, fun _ => .dthPfs⟩,
   ⟨0x26, {}, fun _ => .dthPatk⟩,
   ⟨0x27, {}, fun _ => .dth4gray⟩,
   ⟨0x30, { metric := true }, fun f => .palDist (metricOfBit f.metric)⟩,
   ⟨0x31, { metric := true }, fun f => .palNearest (metricOfBit f.metric)⟩,
   ⟨0x40, { inv := true }, fun f => .packBw f.inv⟩,
   ⟨0x41, { inv := true }, fun f => .packRed f.inv⟩,
   ⟨0x42, { inv := true }, fun f => .pack4gray f.inv⟩,
   ⟨0x50, { fop := true, len := true, ack := true }, fun f => .frameWr f.fop f.len.toNat f.ack⟩,
   ⟨0x51, { fop := true }, fun f => .bulk f.fop⟩,
   ⟨0x52, {}, fun _ => .connect⟩]

/-- A word whose OP byte is a format's is read in that format. -/
theorem decodeFields_of_format : ∀ r ∈ commandFormats, ∀ f : Fields, f.op = r.op →
    decodeFields f = permitted f r.permits (r.build f) := by
  intro r hr f hop
  unfold decodeFields
  rw [hop]
  fin_cases hr <;> rfl

/-- An OP byte that no format has is unassigned. -/
theorem decodeFields_of_no_format (f : Fields) (h : ∀ r ∈ commandFormats, f.op ≠ r.op) :
    decodeFields f = .error (.unassignedOpcode f.op) := by
  simp only [commandFormats, List.forall_mem_cons, ne_eq, ← BitVec.toNat_inj] at h
  unfold decodeFields
  split <;> simp_all

/-- The decoder accepts exactly the words of the eighteen formats. -/
theorem decodeFields_eq_ok_iff (f : Fields) (i : Instr) :
    decodeFields f = .ok i ↔ ∃ r ∈ commandFormats, f.op = r.op ∧ f.within r.permits = true ∧ r.build f = i := by
  constructor
  · intro h
    by_cases hr : ∃ r ∈ commandFormats, f.op = r.op
    · obtain ⟨r, hr, hop⟩ := hr
      rw [decodeFields_of_format r hr f hop, permitted_eq_ok] at h
      exact ⟨r, hr, hop, h⟩
    · rw [decodeFields_of_no_format f fun r hr' hop => hr ⟨r, hr', hop⟩] at h
      cases h
  · rintro ⟨r, hr, hop, hwithin⟩
    rw [decodeFields_of_format r hr f hop]
    exact (permitted_eq_ok _ _ _ _).2 hwithin

/-- The instruction of a format keeps every permitted field, so its word has those fields and no other. -/
theorem fieldsOfInstr_build : ∀ r ∈ commandFormats, ∀ f : Fields, f.op = r.op →
    fieldsOfInstr (r.build f) = f.restrict r.permits ∧ (r.build f).wellFormed = true := by
  intro r hr f hop
  have hlt : f.len.toNat < 32 := f.len.isLt
  unfold Fields.restrict
  rw [hop]
  fin_cases hr <;> simp [fieldsOfInstr, plainFields, Instr.wellFormed, bitOfMetric_metricOfBit, hlt]

/-! ### The rows of the opcode table (R103, R104) -/

/-- The fields bit by bit. -/
def Fields.and (f g : Fields) : Fields where
  op := f.op &&& g.op
  fop := f.fop &&& g.fop
  len := f.len &&& g.len
  reservedLow := f.reservedLow &&& g.reservedLow
  ack := f.ack && g.ack
  inv := f.inv && g.inv
  metric := f.metric && g.metric
  reservedHigh := f.reservedHigh &&& g.reservedHigh

theorem fieldsOf_and (v w : Word) : fieldsOf (v &&& w) = (fieldsOf v).and (fieldsOf w) := by
  simp [fieldsOf, Fields.and, BitVec.extractLsb'_and]

/-- The bits that decide whether a word is of a format: OP and whatever is not permitted. -/
def Permits.tested (p : Permits) : Fields where
  op := BitVec.allOnes 8
  fop := if p.fop then 0 else BitVec.allOnes 8
  len := if p.len then 0 else BitVec.allOnes 5
  reservedLow := BitVec.allOnes 3
  ack := !p.ack
  inv := !p.inv
  metric := !p.metric
  reservedHigh := BitVec.allOnes 5

theorem and_tested_eq_zero_iff {n : Nat} (b : Bool) (x : BitVec n) :
    x &&& (if b then 0 else BitVec.allOnes n) = 0 ↔ b = true ∨ x = 0 := by
  cases b <;> simp

theorem and_not_eq_false_iff (b x : Bool) : (x && !b) = false ↔ b = true ∨ x = false := by
  cases b <;> simp

/-- Under the tested bits a word is the bare opcode exactly if it is of the format. -/
theorem Fields.and_tested_iff (f : Fields) (p : Permits) (op : Byte) :
    f.and p.tested = plainFields op ↔ f.op = op ∧ f.within p = true := by
  simp only [Fields.within_iff, Fields.and, Permits.tested, plainFields, Fields.mk.injEq, BitVec.and_allOnes,
    and_tested_eq_zero_iff, and_not_eq_false_iff]
  tauto

/-- The row of the opcode table for a format. -/
def CommandFormat.row (r : CommandFormat) : TableRow where
  matchWord := assemble (plainFields r.op)
  mask := assemble r.permits.tested

theorem opcodeTable_eq : opcodeTable = commandFormats.map CommandFormat.row := by decide

theorem CommandFormat.row_accepts_iff (r : CommandFormat) (w : Word) :
    r.row.accepts w = true ↔ (fieldsOf w).op = r.op ∧ (fieldsOf w).within r.permits = true := by
  have hinj : Function.Injective fieldsOf := Function.LeftInverse.injective assemble_fieldsOf
  rw [TableRow.accepts, beq_iff_eq, ← hinj.eq_iff, fieldsOf_and, CommandFormat.row, fieldsOf_assemble, fieldsOf_assemble,
    Fields.and_tested_iff]

/-- R103 gives no OP byte twice. -/
theorem commandFormats_op_nodup : (commandFormats.map CommandFormat.op).Nodup := by decide

/-- Words of one OP byte are of one format at most, so no word matches two rows. -/
theorem rows_accepting_length_le_one (w : Word) : (opcodeTable.filter fun row => row.accepts w).length ≤ 1 := by
  rw [opcodeTable_eq, List.filter_map, List.length_map]
  have hop : ((commandFormats.filter fun r => r.row.accepts w).map CommandFormat.op) =
      List.replicate (commandFormats.filter fun r => r.row.accepts w).length (fieldsOf w).op := by
    refine List.eq_replicate_iff.2 ⟨List.length_map _, fun op h => ?_⟩
    obtain ⟨r, hr, rfl⟩ := List.mem_map.1 h
    exact ((r.row_accepts_iff w).1 (List.mem_filter.1 hr).2).1.symm
  have hnodup : ((commandFormats.filter fun r => r.row.accepts w).map CommandFormat.op).Nodup :=
    commandFormats_op_nodup.sublist (List.filter_sublist.map _)
  rw [hop] at hnodup
  exact List.nodup_replicate.1 hnodup

/-- A word decodes exactly if it matches a row. -/
theorem decodes_iff_row (w : Word) : (∃ i, decode w = .ok i) ↔ ∃ row ∈ opcodeTable, row.accepts w = true := by
  rw [opcodeTable_eq]
  constructor
  · rintro ⟨i, h⟩
    obtain ⟨r, hr, hop, hwithin, -⟩ := (decodeFields_eq_ok_iff _ i).1 h
    exact ⟨r.row, List.mem_map_of_mem hr, (r.row_accepts_iff w).2 ⟨hop, hwithin⟩⟩
  · rintro ⟨row, hrow, haccepts⟩
    obtain ⟨r, hr, rfl⟩ := List.mem_map.1 hrow
    obtain ⟨hop, hwithin⟩ := (r.row_accepts_iff w).1 haccepts
    exact ⟨r.build (fieldsOf w), (decodeFields_eq_ok_iff _ _).2 ⟨r, hr, hop, hwithin, rfl⟩⟩

/-- A legal word is the encoding of what it decodes to. -/
theorem encode_of_decode (w : Word) (i : Instr) (h : decode w = .ok i) : encode i = w ∧ i.wellFormed = true := by
  obtain ⟨r, hr, hop, hwithin, rfl⟩ := (decodeFields_eq_ok_iff _ _).1 h
  obtain ⟨hfields, hwf⟩ := fieldsOfInstr_build r hr _ hop
  refine ⟨?_, hwf⟩
  calc encode (r.build (fieldsOf w))
      = assemble ((fieldsOf w).restrict r.permits) := congrArg assemble hfields
    _ = assemble (fieldsOf w) := by rw [(fieldsOf w).restrict_of_within r.permits hwithin]
    _ = w := assemble_fieldsOf w

/-! ### The statements about command words -/

/-- Settles O2: the fields of a word survive the encoding, and each command's fields are within its format. -/
theorem decodeOfEncodeIsTheInstruction : Obligations.DecodeOfEncodeIsTheInstruction := Machine.decode_encode

/-- Settles O3: a word decodes in one of the eighteen formats, whose instruction keeps every permitted field. -/
theorem encodeOfDecodeIsTheWord : Obligations.EncodeOfDecodeIsTheWord := encode_of_decode

/-- Settles O4: each row of the table is a format, and the decoder reads a word in the format of its OP byte. -/
theorem decoderAcceptsTheTableRows : Obligations.DecoderAcceptsTheTableRows := fun w =>
  ⟨decodes_iff_row w, rows_accepting_length_le_one w⟩

/-- Settles O1, by evaluating the decoder on each of the eleven words. -/
theorem writtenWordsDecode : Obligations.WrittenWordsDecode := by
  unfold Obligations.WrittenWordsDecode
  decide

end Sys2Proof
end

section
/-! PROOFS. Acceptance as the host sees it (30_encoding.md R110, R112; 70_reset_and_hazards.md R317): what the write of a
command word leaves, and what the read after a write returns. -/

namespace Sys2Proof.Machine

/-! ### Acceptance of a command by an idle block (R110, R112) -/

theorem exec_of_failed_check (i : Instr) (s : State) (code : ErrCode) (hidle : s.busy = false)
    (hfail : firstFailedCheck s i = some code) : exec i s = .next (s.recorded code i.opcode) := by
  rw [exec_eq, hidle, hfail]
  rfl

theorem exec_of_passed_checks (i : Instr) (s : State) (hidle : s.busy = false) (hpass : firstFailedCheck s i = none) :
    exec i s = .next (s.started i) := by
  rw [exec_eq, hidle, hpass]
  rfl

/-- Settles O8: every command is acceptance under its row of R112's table. -/
theorem firstFailedCheckIsRecorded : Obligations.FirstFailedCheckIsRecorded := exec_of_failed_check

/-- R112's checks look at the CSRs, the parameters and the link, not at the turns to come. -/
theorem firstFailedCheck_agenda (i : Instr) (s : State) (rest : List Turn) :
    firstFailedCheck { s with agenda := rest } i = firstFailedCheck s i := by
  cases i <;> rfl

@[simp] theorem started_curOp (i : Instr) (s : State) : (s.started i).curOp = i.opcode := by
  rw [State.curOp, started_cur]

/-! ### A CSR access as the next turn (R28, R75) -/

theorem step_read_csr (s : State) (rest : List Turn) (addr : Word) (haligned : addr.toNat % 4 = 0)
    (hcsr : addr.toNat + 4 ≤ 0x1000) (ha : s.agenda = .host (.read .w32 addr) :: rest) :
    step s = .next { s with agenda := rest, busData := csrRead addr.toNat s } := by
  rw [step_read s rest .w32 addr ha]
  exact hostRead_csr .w32 addr { s with agenda := rest } addr.toNat (locate_of_csr s.cfg addr hcsr haligned)

theorem step_write_csr (s : State) (rest : List Turn) (addr v : Word) (haligned : addr.toNat % 4 = 0)
    (hcsr : addr.toNat + 4 ≤ 0x1000) (hcmd : addr.toNat ≠ 0x014) (ha : s.agenda = setCsr addr v :: rest) :
    step s = .next (csrWrite addr.toNat v { s with agenda := rest }) := by
  rw [step_write s rest .w32 addr v ha, hostWrite_csr .w32 addr v { s with agenda := rest } addr.toNat
    (locate_of_csr s.cfg addr hcsr haligned), if_neg hcmd]

/-- The write of an instruction's word is the delivery of the instruction. -/
theorem step_commandTurn (s : State) (rest : List Turn) (i : Instr) (hwf : i.wellFormed = true)
    (ha : s.agenda = commandTurn (encode i) :: rest) : step s = exec i { s with agenda := rest } :=
  step_command s (encode i) rest i ha (decode_encode i hwf)

theorem step_accepted (s : State) (rest : List Turn) (i : Instr) (hwf : i.wellFormed = true) (hidle : s.busy = false)
    (hpass : firstFailedCheck s i = none) (ha : s.agenda = commandTurn (encode i) :: rest) :
    step s = .next (State.started { s with agenda := rest } i) := by
  rw [step_commandTurn s rest i hwf ha]
  exact exec_of_passed_checks i _ hidle ((firstFailedCheck_agenda i s rest).trans hpass)

theorem step_rejected (s : State) (rest : List Turn) (i : Instr) (code : ErrCode) (hwf : i.wellFormed = true)
    (hidle : s.busy = false) (hfail : firstFailedCheck s i = some code) (ha : s.agenda = commandTurn (encode i) :: rest) :
    step s = .next (State.recorded { s with agenda := rest } code i.opcode) := by
  rw [step_commandTurn s rest i hwf ha]
  exact exec_of_failed_check i _ code hidle ((firstFailedCheck_agenda i s rest).trans hfail)

/-! ### What the next read shows (R317) -/

/-- STATUS shows an accepted command as running. -/
theorem status_after_accepted (i : Instr) (s : State) (rest : List Turn) (hwf : i.wellFormed = true)
    (hidle : s.busy = false) (hpass : firstFailedCheck s i = none)
    (ha : s.agenda = commandTurn (encode i) :: .host (.read .w32 0x008) :: rest) :
    ∃ t u, step s = .next t ∧ step t = .next u ∧ u.busData.getLsbD 0 = true :=
  ⟨_, _, step_accepted s _ i hwf hidle hpass ha, step_read_csr _ rest 0x008 rfl (by decide) (started_agenda i _),
    (csrRead_status_bit _ 0).trans (started_busy i _)⟩

/-- ERR shows the first failed check of a rejected command, with its opcode. -/
theorem err_after_rejected (i : Instr) (s : State) (rest : List Turn) (code : ErrCode) (hwf : i.wellFormed = true)
    (hidle : s.busy = false) (hfail : firstFailedCheck s i = some code)
    (ha : s.agenda = commandTurn (encode i) :: .host (.read .w32 0x00C) :: rest) :
    ∃ t u, step s = .next t ∧ step t = .next u ∧ u.busData.toNat = codeValue code + 256 * i.opcode.toNat :=
  ⟨_, _, step_rejected s _ i code hwf hidle hfail ha, step_read_csr _ rest 0x00C rfl (by decide) rfl, errWord_toNat _⟩

theorem plainRwCsrs_address : ∀ p ∈ plainRwCsrs, (BitVec.ofNat 32 p.1).toNat = p.1 ∧ p.1 % 4 = 0 ∧ p.1 + 4 ≤ 0x1000 ∧
    p.1 ≠ 0x014 := by decide

/-- A one-field CSR shows what its field kept of the datum. -/
theorem read_after_plain_write (s : State) (rest : List Turn) (v : Word) (p : Nat × Nat) (hp : p ∈ plainRwCsrs)
    (ha : s.agenda = setCsr (BitVec.ofNat 32 p.1) v :: .host (.read .w32 (BitVec.ofNat 32 p.1)) :: rest) :
    ∃ t u, step s = .next t ∧ step t = .next u ∧ u.busData.toNat = v.toNat % 2 ^ p.2 := by
  obtain ⟨haddr, haligned, hcsr, hcmd⟩ := plainRwCsrs_address p hp
  rw [← haddr] at haligned hcsr hcmd
  have hwrite := step_write_csr s _ (BitVec.ofNat 32 p.1) v haligned hcsr hcmd ha
  obtain ⟨hvalue, -, r, hr⟩ :=
    csrWrite_plain { s with agenda := .host (.read .w32 (BitVec.ofNat 32 p.1)) :: rest } v p hp
  have hagenda := congrArg State.agenda hr
  rw [haddr] at hwrite
  refine ⟨_, _, hwrite, step_read_csr _ rest (BitVec.ofNat 32 p.1) haligned hcsr hagenda, ?_⟩
  rw [haddr]
  exact hvalue

/-- Settles O29: acceptance, then the read after an accepted command, after a rejected one, and after a CSR write. -/
theorem acceptedCommandRuns : Obligations.AcceptedCommandRuns :=
  ⟨fun i s hidle hpass =>
    ⟨exec_of_passed_checks i s hidle hpass, started_busy i s, started_curOp i s, started_latched i s⟩,
    status_after_accepted, err_after_rejected, read_after_plain_write⟩

end Sys2Proof.Machine
end

section
/-! PROOFS. A PIXEL command from its acceptance to DONE (45_transport.md R224, 30_encoding.md R110, R111), the loops that make
the image gray pixel by pixel (42_dither.md R140), and NOP and LUMA (41_luma.md R130, R131). -/

namespace Sys2Proof.Machine

/-! ### The Engine's steps of a PIXEL command, up to the last (R224, S10) -/

namespace PixelProgram

variable (p : PixelProgram)

theorem advance_zero (s : State) : p.advance 0 s = s := rfl

theorem advance_succ (n : Nat) (s : State) : p.advance (n + 1) s = p.advance n (p.advance 1 s) := by
  simp only [advance, p.loop_succ, p.loop_zero, Nat.add_assoc, Nat.add_comm 1 n]

theorem runIndex_of_left (s : State) (h : s.engine.pixCursor < p.count s.latched) : p.runIndex s = p.advance 1 s :=
  (if_pos h).trans (by rw [advance, p.loop_succ, p.loop_zero])

theorem runIndex_of_none_left (s : State) (h : p.count s.latched ≤ s.engine.pixCursor) : p.runIndex s = p.last s :=
  if_neg (not_lt.2 h)

theorem engineTurn_byTurns (s : State) (hphase : s.engine.phase = .pixel) (hp : pixelProgramOf s.engine.cur = some p)
    (hpace : s.pace = .byTurns) : engineTurn s = p.runIndex s :=
  (engineTurn_pixel s p hphase hp).trans (p.turn_byTurns s hpace)

/-- By turns, one step for each of the `n` indices left and one more take the command to its end. -/
theorem engineTurn_iterate (n : Nat) (s : State) (hphase : s.engine.phase = .pixel)
    (hp : pixelProgramOf s.engine.cur = some p) (hpace : s.pace = .byTurns)
    (hleft : p.count s.latched = s.engine.pixCursor + n) : engineTurn^[n + 1] s = p.last (p.advance n s) := by
  induction n generalizing s with
  | zero =>
    rw [Function.iterate_one, p.engineTurn_byTurns s hphase hp hpace, p.runIndex_of_none_left s hleft.le, p.advance_zero]
  | succ n ih =>
    have hstep : engineTurn s = p.advance 1 s :=
      (p.engineTurn_byTurns s hphase hp hpace).trans (p.runIndex_of_left s (by omega))
    rw [Function.iterate_succ_apply, hstep, p.advance_succ n s]
    exact ih (p.advance 1 s) hphase hp hpace (hleft.trans (by simp only [advance]; omega))

/-- At either pace the Engine runs the `n` indices that are left and then the last step. -/
theorem afterEngine_eq (n : Nat) (s : State) (hphase : s.engine.phase = .pixel)
    (hp : pixelProgramOf s.engine.cur = some p) (hleft : p.count s.latched = s.engine.pixCursor + n) :
    s.afterEngine n = p.last (p.advance n s) := by
  cases hpace : s.pace with
  | atOnce =>
    have hn : p.count s.latched - s.engine.pixCursor = n := by omega
    rw [afterEngine_atOnce s n hpace, engineTurn_pixel s p hphase hp, p.turn_atOnce s hpace, ← hn]
    rfl
  | byTurns => rw [afterEngine_byTurns s n hpace, p.engineTurn_iterate n s hphase hp hpace hleft]

end PixelProgram

theorem started_of_pixel (i : Instr) (s : State) (h : (pixelProgramOf i).isSome) : s.started i = s.begun i .pixel := by
  cases i with
  | frameWr | bulk | connect => cases h
  | _ => rfl

/-- An accepted PIXEL command ends with its whole loop run over the memories and its result CSRs written. -/
theorem afterEngine_started (i : Instr) (p : PixelProgram) (s : State) (hp : pixelProgramOf i = some p) :
    (s.started i).afterEngine (p.count s.regs) =
      s.doneAfter i (p.count s.regs) (p.loop s.cfg s.regs 0 (p.count s.regs) s.bufs) (p.finish s.regs s.results) := by
  have hend := p.afterEngine_eq (p.count s.regs) (s.begun i .pixel) rfl hp (Nat.zero_add _).symm
  rw [started_of_pixel i s (by rw [hp]; rfl), hend]
  simp only [PixelProgram.last, PixelProgram.advance, State.begun, State.complete, State.doneAfter, Nat.zero_add]

/-- A loop whose body maps PIXMEM alone is that map folded over PIXMEM. -/
theorem PixelProgram.loop_of_pix_body (p : PixelProgram) (c : Config) (r : OperandRegs) (f : Memory → Nat → Memory)
    (hbody : ∀ i b, p.body c r i b = { b with pix := f b.pix i }) (n : Nat) (b : Buffers) :
    p.loop c r 0 n b = { b with pix := (List.range n).foldl f b.pix } := by
  rw [p.loop_from_zero]
  exact List.foldl_hom (fun m => { b with pix := m }) (g₁ := f) (g₂ := fun b i => p.body c r i b) fun m i => hbody i _

/-! ### Loops that make each pixel gray by its own colour (R140) -/

/-- Pixel `i` takes the tone that `tone` gives its colour. -/
def grayPixel (tone : Nat → Rgb → Nat) (m : Memory) (i : Nat) : Memory := setGray m i (tone i (pixRgb m i))

theorem pixRgb_congr (m m' : Memory) (i : Nat) (h : ∀ c, pix m i c = pix m' i c) : pixRgb m i = pixRgb m' i := by
  simp only [pixRgb, h]

/-- After the first `n` pixels, each of them has the tone of its old colour, and nothing else has changed: no pixel's tone
depends on another's. -/
theorem pix_grayPixels (tone : Nat → Rgb → Nat) (m : Memory) (n j : Nat) (d : Channel) :
    pix ((List.range n).foldl (grayPixel tone) m) j d =
      if j < n ∧ d ≠ .A then sat8 (tone j (pixRgb m j)) else pix m j d := by
  induction n generalizing j d with
  | zero => simp
  | succ n ih =>
    have hown : pixRgb ((List.range n).foldl (grayPixel tone) m) n = pixRgb m n :=
      pixRgb_congr _ _ _ fun c => (ih n c).trans (if_neg fun h => lt_irrefl n h.1)
    rw [List.range_succ, List.foldl_append, List.foldl_cons, List.foldl_nil, grayPixel, hown, pix_setGray, ih]
    by_cases hj : j = n
    · subst hj; simp
    · have hlt : j < n + 1 ↔ j < n := by omega
      simp only [hj, hlt, false_and, if_false]

/-- Every byte of PIXMEM is a channel of a pixel. -/
theorem exists_channel_at (a : Nat) : ∃ c, a = pixAddr (a / 4) c ∧ (c = .A ↔ a % 4 = 3) := by
  have hmod : a % 4 = 0 ∨ a % 4 = 1 ∨ a % 4 = 2 ∨ a % 4 = 3 := by omega
  rcases hmod with h | h | h | h
  · exact ⟨.R, by simp only [pixAddr, channelOffset]; omega, by simp [h]⟩
  · exact ⟨.G, by simp only [pixAddr, channelOffset]; omega, by simp [h]⟩
  · exact ⟨.B, by simp only [pixAddr, channelOffset]; omega, by simp [h]⟩
  · exact ⟨.A, by simp only [pixAddr, channelOffset]; omega, by simp [h]⟩

/-- Byte by byte: R, G and B of the first `n` pixels take the tone, and every alpha and every byte beyond stays. -/
theorem memByte_grayPixels (tone : Nat → Rgb → Nat) (htone : ∀ i c, tone i c ≤ 255) (m : Memory) (n a : Nat) :
    memByte .pixmem ((List.range n).foldl (grayPixel tone) m) a =
      if a < 4 * n ∧ a % 4 ≠ 3 then BitVec.ofNat 8 (tone (a / 4) (pixRgb m (a / 4))) else memByte .pixmem m a := by
  obtain ⟨c, haddr, halpha⟩ := exists_channel_at a
  have hpix : ∀ m', memByte .pixmem m' a = pix m' (a / 4) c := fun m' => congrArg (memByte .pixmem m') haddr
  have himage : a / 4 < n ↔ a < 4 * n := by omega
  rw [hpix, hpix, pix_grayPixels, sat8_nat _ (htone _ _)]
  simp only [himage, ne_eq, halpha]

/-! ### NOP and LUMA (R130, R131) -/

/-- R132: a luminance is a byte, since its weights sum to 1000. -/
theorem luminance_le (c : Rgb) : luminance c ≤ 255 := by
  have hr := c.r.isLt
  have hg := c.g.isLt
  have hb := c.b.isLt
  unfold luminance
  omega

theorem lumaProgram_loop (c : Config) (r : OperandRegs) (n : Nat) (b : Buffers) :
    lumaProgram.loop c r 0 n b = { b with pix := (List.range n).foldl (grayPixel fun _ => luminance) b.pix } :=
  lumaProgram.loop_of_pix_body c r _ (fun _ _ => rfl) n b

/-- Settles O9: NOP has no check, no loop and no result. -/
theorem nopCompletes : Obligations.NopCompletes := fun s hidle =>
  ⟨exec_of_passed_checks .nop s hidle rfl, afterEngine_started .nop nopProgram s rfl⟩

/-- Settles O10: LUMA's loop is a pass over the image whose tone is the luminance. -/
theorem lumaMakesTheImageGray : Obligations.LumaMakesTheImageGray := by
  intro s hidle hgeometry
  refine ⟨exec_of_passed_checks .luma s hidle (if_pos hgeometry), _, ?_,
    memByte_grayPixels (fun _ => luminance) (fun _ => luminance_le) s.bufs.pix s.imageSize⟩
  rw [← lumaProgram_loop s.cfg s.regs s.imageSize s.bufs]
  exact afterEngine_started .luma lumaProgram s rfl

end Sys2Proof.Machine
end

section
/-! PROOFS. The dithers whose pixels do not affect one another (42_dither.md R146 to R151): the level function of R149, and each
command as a pass over the image that gives every pixel a tone of its own old value. -/

namespace Sys2Proof.Machine

/-! ### Rounding to nearest, ties to even (R8) -/

/-- The quotient below or the one above, as the remainder stands to half the divisor. -/
theorem rneDiv_cases (a b : Nat) :
    (rneDiv a b = a / b ∧ (2 * (a % b) < b ∨ 2 * (a % b) = b ∧ a / b % 2 = 0)) ∨
    (rneDiv a b = a / b + 1 ∧ (b < 2 * (a % b) ∨ 2 * (a % b) = b ∧ a / b % 2 = 1)) := by
  simp only [rneDiv]
  split_ifs <;> omega

theorem rneDiv_distance (a b : Nat) (hb : 0 < b) :
    ∃ d : Nat, |(rneDiv a b : Int) * b - a| = d ∧ 2 * d ≤ b ∧ (2 * d = b → rneDiv a b % 2 = 0) := by
  have hdiv : ((a / b : Nat) : Int) * b + (a % b : Nat) = a := by exact_mod_cast Nat.div_add_mod' a b
  have hrem : a % b < b := Nat.mod_lt a hb
  rcases rneDiv_cases a b with ⟨hq, hr⟩ | ⟨hq, hr⟩
  · refine ⟨a % b, ?_, by omega, by omega⟩
    rw [hq, ← hdiv, sub_add_cancel_left, abs_neg, Nat.abs_cast]
  · refine ⟨b - a % b, ?_, by omega, by omega⟩
    have hdiff : ((a / b + 1 : Nat) : Int) * b - a = (b - a % b : Nat) := by
      rw [Nat.cast_add, Nat.cast_one, add_mul, one_mul]
      omega
    rw [hq, hdiff, Nat.abs_cast]

theorem rneDiv_le (a b c : Nat) (hb : 0 < b) (h : a ≤ c * b) : rneDiv a b ≤ c := by
  have hquot : a / b ≤ c := Nat.div_le_of_le_mul (h.trans_eq (Nat.mul_comm c b))
  rcases rneDiv_cases a b with ⟨hq, -⟩ | ⟨hq, hr⟩
  · omega
  · have hrem : a % b ≠ 0 := by omega
    have hne : a / b ≠ c := by
      rintro rfl
      have := Nat.div_add_mod' a b
      omega
    omega

theorem rneDiv_mul_self (q b : Nat) (hb : 0 < b) : rneDiv (q * b) b = q := by
  rcases rneDiv_cases (q * b) b with ⟨hq, -⟩ | ⟨-, hr⟩
  · rw [hq, Nat.mul_div_cancel q hb]
  · rw [Nat.mul_mod_left] at hr
    omega

/-! ### Gray levels (R149) -/

theorem levelIndex_le (v n : Nat) (hv : v ≤ 255) : levelIndex v n ≤ n := by
  have hvn : v * n ≤ 255 * n := Nat.mul_le_mul_right n hv
  rw [levelIndex, Nat.mul_assoc]
  omega

/-- The index is strictly nearest: `2*v*n` is even and an odd multiple of 255 is odd, so no tie occurs. -/
theorem levelIndex_nearest (v n : Nat) : 2 * |(levelIndex v n : Int) * 255 - (v : Int) * n| < 255 := by
  rw [levelIndex, Nat.mul_assoc, ← Nat.cast_mul]
  generalize v * n = p
  rcases abs_cases ((((2 * p + 255) / 510 : Nat) : Int) * 255 - (p : Int)) with ⟨h, -⟩ | ⟨h, -⟩ <;> omega

theorem level_le (v n : Nat) (hv : v ≤ 255) (hn : 1 ≤ n) : level v n ≤ 255 :=
  rneDiv_le _ n 255 hn ((Nat.mul_le_mul_right 255 (levelIndex_le v n hv)).trans_eq (Nat.mul_comm n 255))

/-- 256 levels are the identity. -/
theorem level_255 (v : Nat) : level v 255 = v := by
  have hindex : levelIndex v 255 = v := by
    rw [levelIndex]
    omega
  rw [level, hindex, rneDiv_mul_self v 255 (by decide)]

/-- R148: with four levels no rounding is left to do, since 255 is three times 85. -/
theorem level_three (v : Nat) : level v 3 = 85 * levelIndex v 3 := by
  rw [level, show levelIndex v 3 * 255 = 85 * levelIndex v 3 * 3 by omega, rneDiv_mul_self _ 3 (by decide)]

/-- Settles O15, from the distance that `rneDiv` leaves and the nearness of the index. -/
theorem levelIsNearest : Obligations.LevelIsNearest := by
  refine ⟨fun v n hv hn => ?_, fun v _ => level_255 v⟩
  obtain ⟨d, hd, hle, htie⟩ := rneDiv_distance (levelIndex v n * 255) n hn
  have hdist : |(level v n : Int) * n - (levelIndex v n : Int) * 255| = d := by exact_mod_cast hd
  rw [hdist]
  exact ⟨level_le v n hv hn, levelIndex_le v n hv, by exact_mod_cast hle, fun h => htie (by exact_mod_cast h),
    levelIndex_nearest v n⟩

/-! ### Commands that map PIXMEM alone (R141) -/

/-- Such a command is accepted, and the Engine ends it with its map folded over PIXMEM in increasing order. -/
theorem pixmemCommand_runs (i : Instr) (p : PixelProgram) (f : Memory → Nat → Memory) (s : State) (hidle : s.busy = false)
    (hpass : firstFailedCheck s i = none) (hp : pixelProgramOf i = some p) (hcount : p.count s.regs = s.imageSize)
    (hbody : ∀ k b, p.body s.cfg s.regs k b = { b with pix := f b.pix k })
    (hfinish : p.finish s.regs s.results = s.results) :
    exec i s = .next (s.started i) ∧
    (s.started i).afterEngine s.imageSize =
      s.doneAfter i s.imageSize { s.bufs with pix := (List.range s.imageSize).foldl f s.bufs.pix } s.results := by
  have hend := afterEngine_started i p s hp
  rw [hcount, hfinish, p.loop_of_pix_body s.cfg s.regs f hbody] at hend
  exact ⟨exec_of_passed_checks i s hidle hpass, hend⟩

/-- A pass of `tone` over PIXMEM is a `grayImage` of any function that agrees with it on byte values. -/
theorem grayImage_of_grayPixels (tone : Nat → Nat → Nat) (tone' : Nat → Nat → Nat) (m : Memory) (n : Nat)
    (htone : ∀ k v, v ≤ 255 → tone k v = tone' k v ∧ tone' k v ≤ 255) :
    grayImage m ((List.range n).foldl (grayPixel fun k c => tone k c.r.toNat) m) n tone' := by
  have hbyte (b : Byte) : b.toNat ≤ 255 := Nat.le_of_lt_succ b.isLt
  intro a
  have hpass := memByte_grayPixels (fun k c => tone k c.r.toNat)
    (fun k c => (htone k _ (hbyte c.r)).1.trans_le (htone k _ (hbyte c.r)).2) m n a
  rw [hpass, (htone _ _ (hbyte _)).1]
  rfl

/-- What R146 to R151 have in common: the command makes the image gray by a tone of each pixel's own old value. -/
theorem grayCommand_runs (i : Instr) (f : Config → OperandRegs → Nat → Nat → Nat) (tone : Nat → Nat → Nat) (s : State)
    (hidle : s.busy = false) (hpass : firstFailedCheck s i = none) (hp : pixelProgramOf i = some (grayProgram f))
    (htone : ∀ k v, v ≤ 255 → f s.cfg s.regs k v = tone k v ∧ tone k v ≤ 255) :
    exec i s = .next (s.started i) ∧
    ∃ m, (s.started i).afterEngine s.imageSize = s.doneAfter i s.imageSize { s.bufs with pix := m } s.results ∧
      grayImage s.bufs.pix m s.imageSize tone := by
  obtain ⟨haccept, hend⟩ := pixmemCommand_runs i (grayProgram f) (grayPixel fun k c => f s.cfg s.regs k c.r.toNat) s hidle
    hpass hp rfl (fun _ _ => rfl) rfl
  exact ⟨haccept, _, hend, grayImage_of_grayPixels _ tone s.bufs.pix s.imageSize htone⟩

/-! ### The four commands -/

theorem cut_le (p : Prop) [Decidable p] : (if p then 0 else 255) ≤ 255 := by
  split_ifs <;> decide

/-- Settles O11: DTH_NONE's tone is the cut itself. -/
theorem thresholdDitherCuts : Obligations.ThresholdDitherCuts := fun s hidle hgeometry =>
  grayCommand_runs .dthNone toneNone _ s hidle (if_pos hgeometry) rfl fun _ _ _ => ⟨rfl, cut_le _⟩

/-- Settles O12: DTH_GRAY's tone is the level function at THRESH - 1, which THRESH >= 2 makes a step count. -/
theorem grayDitherRoundsToLevels : Obligations.GrayDitherRoundsToLevels := fun s hidle hgeometry hthresh =>
  grayCommand_runs .dthGray toneGray _ s hidle (if_pos ⟨hgeometry, hthresh⟩) rfl fun _ v hv =>
    ⟨rfl, level_le v (s.regs.thresh.toNat - 1) hv (Nat.le_sub_of_add_le hthresh)⟩

/-- Settles O13: with four levels the level is 85 times the index, whose steps are the three cuts. -/
theorem fourGrayDitherCuts : Obligations.FourGrayDitherCuts := by
  intro s hidle hgeometry
  refine grayCommand_runs .dth4gray tone4gray _ s hidle (if_pos hgeometry) rfl fun _ v hv => ?_
  rw [tone4gray, level_three, levelIndex]
  split_ifs <;> omega

/-- Settles O14: DTH_BAYER's tone is the test of R151. -/
theorem bayerDitherTestsTheMatrix : Obligations.BayerDitherTestsTheMatrix := fun s hidle hgeometry =>
  grayCommand_runs .dthBayer toneBayer _ s hidle (if_pos hgeometry) rfl fun _ _ _ => ⟨rfl, cut_le _⟩

end Sys2Proof.Machine
end

section
/-! PROOFS. Where the errors of a diffusion go (42_dither.md R142, R144): the target of a neighbour under either edge policy, that
no target lies before its pixel, and the weights that reach each pixel. -/

namespace Sys2Proof.Machine

/-! ### Targets (R144) -/

theorem target_wrap_iff (r : OperandRegs) (i j : Nat) (nb : Neighbour) (hwrap : r.edge = false) :
    target r i nb = some j ↔ (j : Int) = i + nb.dy * r.width + nb.dx ∧ j < r.pixels := by
  rw [target, if_neg (by simp [hwrap])]
  simp only [targetWrap]
  split_ifs with h
  · rw [Option.some_inj]
    omega
  · simp only [false_iff]
    omega

theorem width_pos_of_lt_pixels (r : OperandRegs) (j : Nat) (h : j < r.pixels) : 0 < r.width :=
  Nat.pos_of_ne_zero fun h0 => by simp [OperandRegs.pixels, h0] at h

theorem row_of_flat (row col width : Nat) (h : col < width) : (row * width + col) / width = row := by
  rw [Nat.mul_comm, Nat.mul_add_div (Nat.zero_lt_of_lt h), Nat.div_eq_of_lt h, Nat.add_zero]

theorem target_clip_iff (r : OperandRegs) (i j : Nat) (nb : Neighbour) (hclip : r.edge = true) :
    target r i nb = some j ↔
      j < r.pixels ∧ ((j % r.width : Nat) : Int) = (i % r.width : Nat) + nb.dx ∧ j / r.width = i / r.width + nb.dy := by
  constructor
  · intro h
    refine ⟨target_lt_pixels r i j nb h, ?_⟩
    rw [target, if_pos hclip] at h
    simp only [targetClip] at h
    split_ifs at h with hin
    injection h with h
    obtain ⟨col, hcol⟩ := Int.eq_ofNat_of_zero_le hin.1
    have hlt : col < r.width := by omega
    rw [hcol, Int.toNat_natCast] at h
    rw [hcol, ← h, Nat.mul_add_mod_of_lt hlt, row_of_flat _ _ _ hlt]
    exact ⟨rfl, rfl⟩
  · rintro ⟨hj, hcol, hrow⟩
    have hlt : j % r.width < r.width := Nat.mod_lt j (width_pos_of_lt_pixels r j hj)
    have hheight : j / r.width < r.height := Nat.div_lt_of_lt_mul hj
    rw [target, if_pos hclip]
    simp only [targetClip]
    rw [if_pos (by omega), ← hrow, ← hcol, Int.toNat_natCast, Nat.div_add_mod']

/-- Settles O20: a target is a pixel of the image, and each policy has its own equivalence. -/
theorem diffusionTargetsStayInTheImage : Obligations.DiffusionTargetsStayInTheImage := fun r i nb _ _ =>
  ⟨fun j => target_lt_pixels r i j nb, fun hwrap j => target_wrap_iff r i j nb hwrap,
    fun hclip j => target_clip_iff r i j nb hclip⟩

/-! ### Neighbours are not yet visited (R141) -/

/-- A neighbour to the right in its own row, or at most one column to the left in a later one. -/
def Neighbour.Ahead (nb : Neighbour) : Prop := nb.dy = 0 ∧ 1 ≤ nb.dx ∨ 1 ≤ nb.dy ∧ -1 ≤ nb.dx

/-- What R142's two lists have in common. -/
theorem ahead_and_nonneg_of_mem (nbs : List Neighbour) (hnbs : nbs = nbFs ∨ nbs = nbAtk) :
    ∀ nb ∈ nbs, nb.Ahead ∧ 0 ≤ nb.weight := by
  unfold Neighbour.Ahead
  rcases hnbs with rfl | rfl <;> decide

/-- No error goes back to a visited pixel; a pixel is its own target only in an image one column wide under WRAP. -/
theorem le_target (r : OperandRegs) (i j : Nat) (nb : Neighbour) (hahead : nb.Ahead) (h : target r i nb = some j) :
    i ≤ j ∧ (r.noSelfTarget → i < j) := by
  have hwidth : 0 < r.width := width_pos_of_lt_pixels r j (target_lt_pixels r i j nb h)
  cases hedge : r.edge with
  | false =>
    obtain ⟨hj, -⟩ := (target_wrap_iff r i j nb hedge).1 h
    have hself : r.noSelfTarget → 2 ≤ r.width := fun h => h.resolve_left (by simp [hedge])
    have hrows : 1 ≤ nb.dy → (r.width : Int) ≤ nb.dy * r.width := fun h => by exact_mod_cast Nat.le_mul_of_pos_left _ h
    rcases hahead with ⟨hdy, hdx⟩ | ⟨hdy, hdx⟩
    · rw [hdy] at hj
      omega
    · have := hrows hdy
      exact ⟨by omega, fun h => by have := hself h; omega⟩
  | true =>
    obtain ⟨-, hcol, hrow⟩ := (target_clip_iff r i j nb hedge).1 h
    have hlt : i < j := by
      rcases hahead with ⟨hdy, hdx⟩ | ⟨hdy, -⟩
      · rw [hdy, Nat.add_zero] at hrow
        have hi := Nat.div_add_mod i r.width
        have hj := Nat.div_add_mod j r.width
        rw [hrow] at hj
        omega
      · exact lt_of_not_ge fun hle => absurd (Nat.div_le_div_right (c := r.width) hle) (by omega)
    exact ⟨hlt.le, fun _ => hlt⟩

/-! ### Weights (R142, R158) -/

theorem weightTo_cons (r : OperandRegs) (nb : Neighbour) (nbs : List Neighbour) (i j : Nat) :
    weightTo r (nb :: nbs) i j = (if target r i nb = some j then nb.weight else 0) + weightTo r nbs i j := by
  simp only [weightTo, List.map_cons, List.sum_cons]

theorem weightTo_nonneg (r : OperandRegs) (nbs : List Neighbour) (i j : Nat) (h : ∀ nb ∈ nbs, 0 ≤ nb.weight) :
    0 ≤ weightTo r nbs i j := by
  refine List.sum_nonneg fun w hw => ?_
  obtain ⟨nb, hnb, rfl⟩ := List.mem_map.1 hw
  split_ifs
  · exact h nb hnb
  · exact le_rfl

theorem weightTo_eq_zero (r : OperandRegs) (nbs : List Neighbour) (i j : Nat)
    (h : ∀ nb ∈ nbs, target r i nb ≠ some j) : weightTo r nbs i j = 0 := by
  refine List.sum_eq_zero fun w hw => ?_
  obtain ⟨nb, hnb, rfl⟩ := List.mem_map.1 hw
  exact if_neg (h nb hnb)

theorem weightTo_before (r : OperandRegs) (nbs : List Neighbour) (hnbs : nbs = nbFs ∨ nbs = nbAtk) (i j : Nat)
    (hj : j < i) : weightTo r nbs i j = 0 :=
  weightTo_eq_zero r nbs i j fun nb hnb h =>
    absurd (le_target r i j nb (ahead_and_nonneg_of_mem nbs hnbs nb hnb).1 h).1 (not_le.2 hj)

theorem weightTo_self (r : OperandRegs) (nbs : List Neighbour) (hnbs : nbs = nbFs ∨ nbs = nbAtk) (i : Nat)
    (hself : r.noSelfTarget) : weightTo r nbs i i = 0 :=
  weightTo_eq_zero r nbs i i fun nb hnb h =>
    absurd ((le_target r i i nb (ahead_and_nonneg_of_mem nbs hnbs nb hnb).1 h).2 hself) (lt_irrefl i)

/-- Over the whole image the weights of the neighbours that have targets add up. -/
theorem sum_weightTo (r : OperandRegs) (nbs : List Neighbour) (i : Nat) (h : ∀ nb ∈ nbs, ∃ j, target r i nb = some j) :
    ((List.range r.pixels).map (weightTo r nbs i)).sum = (nbs.map Neighbour.weight).sum := by
  induction nbs with
  | nil => exact List.sum_eq_zero fun w hw => by obtain ⟨j, -, rfl⟩ := List.mem_map.1 hw; rfl
  | cons nb nbs ih =>
    obtain ⟨t, ht⟩ := h nb List.mem_cons_self
    have hone : ((List.range r.pixels).map fun j => if target r i nb = some j then nb.weight else 0).sum = nb.weight := by
      have hcount : (List.range r.pixels).count t = 1 :=
        List.count_eq_one_of_mem List.nodup_range (List.mem_range.2 (target_lt_pixels r i t nb ht))
      simp only [ht, Option.some_inj, eq_comm (a := t)]
      rw [List.sum_map_ite_eq, hcount]
      simp
    rw [show weightTo r (nb :: nbs) i = _ from funext (weightTo_cons r nb nbs i), List.sum_map_add, hone,
      ih fun nb hnb => h nb (List.mem_cons_of_mem _ hnb), List.map_cons, List.sum_cons]

/-- For a pixel away from the edges a neighbour's target is at its flat offset, whatever the policy. -/
theorem target_interior_iff (r : OperandRegs) (x y j : Nat) (nb : Neighbour) (hx : 1 ≤ x) (hwidth : x + 2 < r.width)
    (hheight : y + 2 < r.height) (hdx : -1 ≤ nb.dx ∧ nb.dx ≤ 2) (hdy : nb.dy ≤ 2) :
    target r (y * r.width + x) nb = some j ↔ (j : Int) = y * r.width + x + nb.dy * r.width + nb.dx := by
  obtain ⟨col, hcol⟩ := Int.eq_ofNat_of_zero_le (show 0 ≤ (x : Int) + nb.dx by omega)
  have hlt : col < r.width := by omega
  have hflat : (j : Int) = y * r.width + x + nb.dy * r.width + nb.dx ↔ j = (y + nb.dy) * r.width + col := by
    rw [← Int.natCast_inj]
    push_cast
    rw [add_mul]
    omega
  have hinside : (y + nb.dy) * r.width + col < r.pixels :=
    calc (y + nb.dy) * r.width + col < (y + nb.dy + 1) * r.width := by rw [Nat.succ_mul]; omega
      _ ≤ r.height * r.width := Nat.mul_le_mul_right _ (by omega)
      _ = r.pixels := Nat.mul_comm _ _
  cases hedge : r.edge with
  | false =>
    rw [target_wrap_iff _ _ _ _ hedge, Nat.cast_add, Nat.cast_mul, hflat]
    exact and_iff_left_of_imp fun h => h ▸ hinside
  | true =>
    rw [target_clip_iff _ _ _ _ hedge, hflat, Nat.mul_add_mod_of_lt (by omega), row_of_flat y x _ (by omega), hcol]
    constructor
    · rintro ⟨-, hc, hr⟩
      rw [← hr, ← Int.natCast_inj.1 hc, Nat.div_add_mod']
    · rintro rfl
      exact ⟨hinside, congrArg Nat.cast (Nat.mul_add_mod_of_lt hlt), row_of_flat _ _ _ hlt⟩

/-- From a pixel away from the edges every neighbour of either list has a target. -/
theorem exists_target_interior (r : OperandRegs) (x y : Nat) (nbs : List Neighbour) (hnbs : nbs = nbFs ∨ nbs = nbAtk)
    (hx : 1 ≤ x) (hwidth : x + 2 < r.width) (hheight : y + 2 < r.height) :
    ∀ nb ∈ nbs, ∃ j, target r (y * r.width + x) nb = some j := by
  have hreach : ∀ nb ∈ nbs, (-1 ≤ nb.dx ∧ nb.dx ≤ 2) ∧ nb.dy ≤ 2 := by
    rcases hnbs with rfl | rfl <;> decide
  intro nb hnb
  obtain ⟨hdx, hdy⟩ := hreach nb hnb
  have hrow : (0 : Int) ≤ y * r.width := by positivity
  have hdown : (0 : Int) ≤ nb.dy * r.width := by positivity
  obtain ⟨j, hj⟩ := Int.eq_ofNat_of_zero_le (show 0 ≤ (y : Int) * r.width + x + nb.dy * r.width + nb.dx by omega)
  exact ⟨j, (target_interior_iff r x y j nb hx hwidth hheight hdx hdy).2 hj.symm⟩

theorem weightTo_nbFs_interior (r : OperandRegs) (x y j : Nat) (hx : 1 ≤ x) (hwidth : x + 2 < r.width)
    (hheight : y + 2 < r.height) :
    weightTo r nbFs (y * r.width + x) j =
      if j = y * r.width + x + 1 then 7 else if j = y * r.width + x + r.width - 1 then 3
      else if j = y * r.width + x + r.width then 5 else if j = y * r.width + x + r.width + 1 then 1 else 0 := by
  have htarget := target_interior_iff r x y j (hx := hx) (hwidth := hwidth) (hheight := hheight)
  simp (disch := decide) only [weightTo, nbFs, List.map_cons, List.map_nil, List.sum_cons, List.sum_nil, htarget]
  split_ifs <;> omega

theorem weightTo_nbAtk_interior (r : OperandRegs) (x y j : Nat) (hx : 1 ≤ x) (hwidth : x + 2 < r.width)
    (hheight : y + 2 < r.height) :
    weightTo r nbAtk (y * r.width + x) j =
      if j = y * r.width + x + 1 ∨ j = y * r.width + x + 2 ∨ j = y * r.width + x + r.width - 1 ∨
        j = y * r.width + x + r.width ∨ j = y * r.width + x + r.width + 1 ∨ j = y * r.width + x + 2 * r.width
      then 1 else 0 := by
  have htarget := target_interior_iff r x y j (hx := hx) (hwidth := hwidth) (hheight := hheight)
  simp (disch := decide) only [weightTo, nbAtk, List.map_cons, List.map_nil, List.sum_cons, List.sum_nil, htarget]
  split_ifs <;> omega

end Sys2Proof.Machine
end

section
/-! PROOFS. What one step of error diffusion leaves in each byte of the image (42_dither.md R145, R152, R155). -/

namespace Sys2Proof.Machine

/-! ### Saturating stores of one sign add up (R145) -/

theorem sat8_mul_then_mul (b : Byte) (e w w' : Int) (hw : 0 ≤ w) (hw' : 0 ≤ w') :
    sat8 ((sat8 (b.toNat + e * w)).toNat + e * w') = sat8 (b.toNat + e * (w + w')) := by
  have hb := b.isLt
  have hfirst := sat8_toNat (b.toNat + e * w)
  have hsecond := sat8_toNat ((sat8 (b.toNat + e * w)).toNat + e * w')
  have hboth := sat8_toNat (b.toNat + e * (w + w'))
  rw [mul_add] at hboth ⊢
  rw [← BitVec.toNat_inj]
  rcases le_total 0 e with he | he
  · have h := mul_nonneg he hw
    have h' := mul_nonneg he hw'
    omega
  · have h := mul_nonpos_of_nonpos_of_nonneg he hw
    have h' := mul_nonpos_of_nonpos_of_nonneg he hw'
    omega

/-! ### Diffuse (R145) -/

theorem pix_diffuseInto_other (m : Memory) (j k : Nat) (w : Int) (errs : List (Channel × Int)) (c : Channel)
    (h : k = j → c ∉ errs.map Prod.fst) : pix (diffuseInto m j w errs) k c = pix m k c :=
  foldl_keeps (fun n => pix n k c = pix m k c) _ errs m rfl fun n p hp hn =>
    (pix_setPix n j k p.1 c _).trans ((if_neg fun ⟨hk, hc⟩ => h hk (hc ▸ List.mem_map_of_mem hp)).trans hn)

theorem pix_diffuseInto_at (m : Memory) (j : Nat) (w : Int) (errs : List (Channel × Int)) (c : Channel) (e : Int)
    (hdistinct : (errs.map Prod.fst).Nodup) (hmem : (c, e) ∈ errs) :
    pix (diffuseInto m j w errs) j c = sat8 ((pix m j c).toNat + e * w) := by
  induction errs generalizing m with
  | nil => cases hmem
  | cons p rest ih =>
    obtain ⟨hnotin, hrest⟩ := List.nodup_cons.1 hdistinct
    show pix (diffuseInto (setPix m j p.1 ((pix m j p.1).toNat + p.2 * w)) j w rest) j c = _
    rcases List.mem_cons.1 hmem with rfl | hin
    · rw [pix_diffuseInto_other _ _ _ _ _ _ fun _ => hnotin, pix_setPix, if_pos ⟨rfl, rfl⟩]
    · have hne : c ≠ p.1 := fun h => hnotin (h ▸ List.mem_map_of_mem (f := Prod.fst) hin)
      rw [ih _ hrest hin, pix_setPix, if_neg fun h => hne h.2]

theorem diffuse_cons (r : OperandRegs) (nb : Neighbour) (nbs : List Neighbour) (errs : List (Channel × Int)) (i : Nat)
    (m : Memory) : diffuse r (nb :: nbs) errs i m = diffuse r nbs errs i (diffuse r [nb] errs i m) := rfl

theorem diffuse_of_target (r : OperandRegs) (nb : Neighbour) (errs : List (Channel × Int)) (i j : Nat) (m : Memory)
    (h : target r i nb = some j) : diffuse r [nb] errs i m = diffuseInto m j nb.weight errs := by
  simp only [diffuse, List.foldl_cons, List.foldl_nil, h]

theorem diffuse_of_no_target (r : OperandRegs) (nb : Neighbour) (errs : List (Channel × Int)) (i : Nat) (m : Memory)
    (h : target r i nb = none) : diffuse r [nb] errs i m = m := by
  simp only [diffuse, List.foldl_cons, List.foldl_nil, h]

/-- One neighbour's stores: its target's channels take the error times the weight, and every other byte stays. -/
theorem pix_diffuse_one (r : OperandRegs) (nb : Neighbour) (errs : List (Channel × Int)) (i j : Nat) (m : Memory)
    (c : Channel) (e : Int) (hdistinct : (errs.map Prod.fst).Nodup) (hmem : (c, e) ∈ errs) :
    pix (diffuse r [nb] errs i m) j c =
      sat8 ((pix m j c).toNat + e * if target r i nb = some j then nb.weight else 0) := by
  cases ht : target r i nb with
  | none => rw [diffuse_of_no_target r nb errs i m ht, if_neg (by simp), mul_zero, add_zero, sat8_byte]
  | some k =>
    rw [diffuse_of_target r nb errs i k m ht]
    by_cases hk : j = k
    · rw [hk, if_pos rfl, pix_diffuseInto_at m k nb.weight errs c e hdistinct hmem]
    · rw [if_neg fun h => hk (Option.some_inj.1 h).symm, mul_zero, add_zero, sat8_byte]
      exact pix_diffuseInto_other m k j nb.weight errs c fun h => absurd h hk

/-- All the stores: since they carry errors of one sign, each byte is one saturated sum. -/
theorem pix_diffuse (r : OperandRegs) (nbs : List Neighbour) (errs : List (Channel × Int)) (i j : Nat) (m : Memory)
    (c : Channel) (e : Int) (hdistinct : (errs.map Prod.fst).Nodup) (hmem : (c, e) ∈ errs)
    (hweight : ∀ nb ∈ nbs, 0 ≤ nb.weight) :
    pix (diffuse r nbs errs i m) j c = sat8 ((pix m j c).toNat + e * weightTo r nbs i j) := by
  induction nbs generalizing m with
  | nil =>
    show pix m j c = sat8 ((pix m j c).toNat + e * 0)
    rw [mul_zero, add_zero, sat8_byte]
  | cons nb nbs ih =>
    obtain ⟨hfirst, hrest⟩ := List.forall_mem_cons.1 hweight
    have hone : 0 ≤ if target r i nb = some j then nb.weight else 0 := by
      split_ifs
      · exact hfirst
      · exact le_rfl
    rw [diffuse_cons, ih _ hrest, pix_diffuse_one r nb errs i j m c e hdistinct hmem, weightTo_cons,
      sat8_mul_then_mul _ _ _ _ hone (weightTo_nonneg r nbs i j hrest)]

theorem pix_diffuse_other (r : OperandRegs) (nbs : List Neighbour) (errs : List (Channel × Int)) (i j : Nat) (m : Memory)
    (c : Channel) (hc : c ∉ errs.map Prod.fst) : pix (diffuse r nbs errs i m) j c = pix m j c := by
  refine foldl_keeps (fun n => pix n j c = pix m j c) _ nbs m rfl fun n nb _ hn => ?_
  cases target r i nb with
  | none => exact hn
  | some k => exact (pix_diffuseInto_other n k j nb.weight errs c fun _ => hc).trans hn

/-! ### The gray step (R152) -/

/-- The value that R152 gives the pixel. -/
def cutTone (cut v : Nat) : Int := if v < cut then 0 else 255

theorem sat8_cutTone (cut v : Nat) : ((sat8 (cutTone cut v)).toNat : Int) = cutTone cut v := by
  unfold cutTone
  split_ifs <;> rfl

/-- The end of R152's step: G and B of pixel `i` take its R. -/
def copyRed (m : Memory) (i : Nat) : Memory := setPix (setPix m i .G (pix m i .R).toNat) i .B (pix m i .R).toNat

theorem pix_copyRed (m : Memory) (i j : Nat) (c : Channel) :
    pix (copyRed m i) j c = if j = i ∧ c ≠ .A then pix m i .R else pix m j c := by
  simp only [copyRed, pix_setPix, sat8_byte]
  by_cases hj : j = i
  · subst hj
    cases c <;> simp
  · simp only [hj, false_and, if_false]

theorem grayEd_eq (r : OperandRegs) (cut : Nat) (rate : Int) (nbs : List Neighbour) (m : Memory) (i : Nat) :
    grayEd r cut rate nbs m i =
      copyRed (diffuse r nbs [(.R, Int.fdiv ((pix m i .R).toNat - cutTone cut (pix m i .R).toNat) rate)] i
        (setPix m i .R (cutTone cut (pix m i .R).toNat))) i := by
  have hcut : ((if (pix m i .R).toNat < cut then 0 else 255 : Nat) : Int) = cutTone cut (pix m i .R).toNat :=
    Nat.cast_ite _ _ _
  rw [← hcut]
  rfl

theorem pix_grayEd_red (r : OperandRegs) (cut : Nat) (rate : Int) (nbs : List Neighbour) (m : Memory) (i j : Nat)
    (hweight : ∀ nb ∈ nbs, 0 ≤ nb.weight) :
    pix (grayEd r cut rate nbs m i) j .R =
      sat8 ((if j = i then cutTone cut (pix m i .R).toNat else (pix m j .R).toNat) +
        Int.fdiv ((pix m i .R).toNat - cutTone cut (pix m i .R).toNat) rate * weightTo r nbs i j) := by
  have hcopy (m' : Memory) : pix (copyRed m' i) j .R = pix m' j .R := by
    rw [pix_copyRed]
    by_cases hj : j = i <;> simp [hj]
  rw [grayEd_eq, hcopy]
  refine (pix_diffuse r nbs _ i j _ .R _ ?_ List.mem_cons_self hweight).trans ?_
  · exact List.nodup_singleton _
  rw [pix_setPix]
  by_cases hj : j = i
  · rw [if_pos ⟨hj, rfl⟩, if_pos hj, sat8_cutTone]
  · rw [if_neg fun h => hj h.1, if_neg hj]

theorem pix_grayEd_own (r : OperandRegs) (cut : Nat) (rate : Int) (nbs : List Neighbour) (m : Memory) (i : Nat)
    (c : Channel) (hc : c ≠ .A) : pix (grayEd r cut rate nbs m i) i c = pix (grayEd r cut rate nbs m i) i .R := by
  rw [grayEd_eq, pix_copyRed, pix_copyRed, if_pos ⟨rfl, hc⟩, if_pos ⟨rfl, by decide⟩]

theorem pix_grayEd_other (r : OperandRegs) (cut : Nat) (rate : Int) (nbs : List Neighbour) (m : Memory) (i j : Nat)
    (c : Channel) (hred : c ≠ .R) (hother : j ≠ i ∨ c = .A) : pix (grayEd r cut rate nbs m i) j c = pix m j c := by
  rw [grayEd_eq, pix_copyRed, if_neg fun h => hother.elim (fun hj => hj h.1) h.2,
    pix_diffuse_other r nbs _ i j _ c (by simpa using hred), pix_setPix, if_neg fun h => hred h.2]

/-- Settles O17: the step's rules byte by byte, and the weights from a pixel away from the edges. -/
theorem grayDiffusionStepValues : Obligations.GrayDiffusionStepValues := by
  constructor
  · intro r cut rate nbs m i hnbs _
    exact ⟨fun j => pix_grayEd_red r cut rate nbs m i j fun nb hnb => (ahead_and_nonneg_of_mem nbs hnbs nb hnb).2,
      pix_grayEd_own r cut rate nbs m i .G (by decide), pix_grayEd_own r cut rate nbs m i .B (by decide),
      fun j c hj hc => pix_grayEd_other r cut rate nbs m i j c hc (.inl hj),
      pix_grayEd_other r cut rate nbs m i i .A (by decide) (.inr rfl)⟩
  · intro r x y hx hwidth hheight
    have hsum (nbs : List Neighbour) (hnbs : nbs = nbFs ∨ nbs = nbAtk) :=
      sum_weightTo r nbs _ (exists_target_interior r x y nbs hnbs hx hwidth hheight)
    exact ⟨fun j => weightTo_nbFs_interior r x y j hx hwidth hheight,
      fun j => weightTo_nbAtk_interior r x y j hx hwidth hheight, hsum nbFs (.inl rfl), hsum nbAtk (.inr rfl)⟩

/-! ### The palette step (R155) -/

/-- A channel of a colour, which has no alpha (R180). -/
def Rgb.channel (p : Rgb) : Channel → Byte
  | .R => p.r
  | .G => p.g
  | .B => p.b
  | .A => 0

theorem pixRgb_channel (m : Memory) (i : Nat) (c : Channel) (hc : c ≠ .A) : (pixRgb m i).channel c = pix m i c := by
  cases c with
  | A => exact absurd rfl hc
  | _ => rfl

theorem pixRgb_eq_of_channels (m : Memory) (i : Nat) (p : Rgb) (h : ∀ c, c ≠ .A → pix m i c = p.channel c) :
    pixRgb m i = p := by
  rw [pixRgb, h .R (by decide), h .G (by decide), h .B (by decide)]
  rfl

/-- R155's three stores of a colour. -/
def setRgb (m : Memory) (i : Nat) (p : Rgb) : Memory :=
  setPix (setPix (setPix m i .R p.r.toNat) i .G p.g.toNat) i .B p.b.toNat

theorem pix_setRgb (m : Memory) (i j : Nat) (p : Rgb) (c : Channel) :
    pix (setRgb m i p) j c = if j = i ∧ c ≠ .A then p.channel c else pix m j c := by
  simp only [setRgb, pix_setPix, sat8_byte]
  by_cases hj : j = i
  · subst hj
    cases c <;> simp [Rgb.channel]
  · simp only [hj, false_and, if_false]

/-- The errors of a colour `c` that becomes `p`, in R145's order. -/
def colourErrors (c p : Rgb) (rate : Int) : List (Channel × Int) :=
  [.R, .G, .B].map fun ch => (ch, quantError (c.channel ch).toNat (p.channel ch).toNat rate)

theorem colourErrors_channels (c p : Rgb) (rate : Int) : (colourErrors c p rate).map Prod.fst = [.R, .G, .B] := rfl

theorem mem_colourErrors (c p : Rgb) (rate : Int) (ch : Channel) (hch : ch ≠ .A) :
    (ch, Int.fdiv ((c.channel ch).toNat - (p.channel ch).toNat) rate) ∈ colourErrors c p rate := by
  refine List.mem_map.2 ⟨ch, ?_, rfl⟩
  cases ch with
  | A => exact absurd rfl hch
  | _ => decide

/-- The palette colour that R155 stores in pixel `i`. -/
def chosenColour (r : OperandRegs) (m : Memory) (i : Nat) : Rgb := r.palEntry (nearest r .euclid (pixRgb m i))

theorem palEd_eq (r : OperandRegs) (rate : Int) (nbs : List Neighbour) (m : Memory) (i : Nat) :
    palEd r rate nbs m i =
      diffuse r nbs (colourErrors (pixRgb m i) (chosenColour r m i) rate) i (setRgb m i (chosenColour r m i)) := rfl

theorem pix_palEd (r : OperandRegs) (rate : Int) (nbs : List Neighbour) (m : Memory) (i j : Nat) (c : Channel)
    (hc : c ≠ .A) (hweight : ∀ nb ∈ nbs, 0 ≤ nb.weight) :
    pix (palEd r rate nbs m i) j c =
      sat8 ((if j = i then (((chosenColour r m i).channel c).toNat : Int) else (pix m j c).toNat) +
        Int.fdiv ((pix m i c).toNat - ((chosenColour r m i).channel c).toNat) rate * weightTo r nbs i j) := by
  have hdistinct : ((colourErrors (pixRgb m i) (chosenColour r m i) rate).map Prod.fst).Nodup := by
    rw [colourErrors_channels]
    decide
  rw [palEd_eq, pix_diffuse r nbs _ i j _ c _ hdistinct (mem_colourErrors _ _ rate c hc) hweight, pixRgb_channel m i c hc,
    pix_setRgb]
  by_cases hj : j = i
  · rw [if_pos ⟨hj, hc⟩, if_pos hj]
  · rw [if_neg fun h => hj h.1, if_neg hj]

theorem pix_palEd_alpha (r : OperandRegs) (rate : Int) (nbs : List Neighbour) (m : Memory) (i j : Nat) :
    pix (palEd r rate nbs m i) j .A = pix m j .A := by
  have hnotin : Channel.A ∉ (colourErrors (pixRgb m i) (chosenColour r m i) rate).map Prod.fst := by
    rw [colourErrors_channels]
    decide
  rw [palEd_eq, pix_diffuse_other r nbs _ i j _ .A hnotin, pix_setRgb, if_neg fun h => h.2 rfl]

/-- Settles O19, channel by channel. -/
theorem paletteDiffusionStepValues : Obligations.PaletteDiffusionStepValues := by
  intro r rate nbs m i hnbs _ k p m' j
  have hweight : ∀ nb ∈ nbs, 0 ≤ nb.weight := fun nb hnb => (ahead_and_nonneg_of_mem nbs hnbs nb hnb).2
  exact ⟨pix_palEd r rate nbs m i j .R (by decide) hweight, pix_palEd r rate nbs m i j .G (by decide) hweight,
    pix_palEd r rate nbs m i j .B (by decide) hweight, pix_palEd_alpha r rate nbs m i j⟩

end Sys2Proof.Machine
end

section
/-! PROOFS. The diffusion commands as runs of their step over the pixels in order, and the image that they leave (42_dither.md
R153 to R159). -/

namespace Sys2Proof.Machine

/-- R141: what a step settles for its own pixel and keeps for the pixels before it holds of every pixel it has visited. -/
theorem foldl_range_settles (P : Memory → Nat → Prop) (f : Memory → Nat → Memory) (hnew : ∀ m i, P (f m i) i)
    (hkeep : ∀ m i j, j < i → P m j → P (f m i) j) (m : Memory) (n j : Nat) (hj : j < n) :
    P ((List.range n).foldl f m) j := by
  induction n with
  | zero => exact absurd hj (Nat.not_lt_zero j)
  | succ n ih =>
    rw [List.range_succ, List.foldl_append, List.foldl_cons, List.foldl_nil]
    rcases Nat.lt_succ_iff_lt_or_eq.1 hj with hlt | rfl
    · exact hkeep _ n j hlt (ih hlt)
    · exact hnew _ j

/-- The channel `c` of every pixel is as before, if every step of a pass keeps it. -/
theorem pix_foldl_range (f : Memory → Nat → Memory) (c : Channel) (h : ∀ m i j, pix (f m i) j c = pix m j c) (m : Memory)
    (n j : Nat) : pix ((List.range n).foldl f m) j c = pix m j c :=
  foldl_keeps (fun u => pix u j c = pix m j c) f _ m rfl fun u i _ hu => (h u i j).trans hu

/-- The end of a run is that of whatever next state the delivery answers. -/
theorem afterEngine_of_exec {i : Instr} {s t started ended : State} {n : Nat} (hexec : exec i s = .next t)
    (haccept : exec i s = .next started) (hend : started.afterEngine n = ended) : t.afterEngine n = ended := by
  have hstarted : t = started := Host.Outcome.next.inj (hexec.symm.trans haccept)
  rw [hstarted, hend]

/-! ### The gray commands (R153, R154, R159) -/

/-- Settles O16: DTH_FS and DTH_ATK map PIXMEM alone, by R152's step. -/
theorem grayDiffusionRunsInOrder : Obligations.GrayDiffusionRunsInOrder := by
  intro s hidle hgeometry
  obtain ⟨hfs, hfsEnd⟩ := pixmemCommand_runs .dthFs dthFsProgram (grayEd s.regs fsCut rateFs nbFs) s hidle
    (if_pos hgeometry) rfl rfl (fun _ _ => rfl) rfl
  obtain ⟨hatk, hatkEnd⟩ := pixmemCommand_runs .dthAtk dthAtkProgram
    (grayEd s.regs s.regs.thresh.toNat rateAtk nbAtk) s hidle (if_pos hgeometry) rfl rfl (fun _ _ => rfl) rfl
  exact ⟨hfs, hfsEnd, hatk, hatkEnd⟩

/-- A pixel that R152's step has settled: R = G = B, and black or white if no pixel is its own target. -/
def GraySettled (r : OperandRegs) (m : Memory) (j : Nat) : Prop :=
  pix m j .G = pix m j .R ∧ pix m j .B = pix m j .R ∧ (r.noSelfTarget → pix m j .R = 0 ∨ pix m j .R = 255)

theorem sat8_cutTone_cases (cut v : Nat) : sat8 (cutTone cut v) = 0 ∨ sat8 (cutTone cut v) = 255 := by
  unfold cutTone
  split_ifs
  · exact .inl rfl
  · exact .inr rfl

/-- R of a pixel that the error does not reach is the cut's value at the step's own pixel and stays elsewhere. -/
theorem pix_grayEd_red_unreached (r : OperandRegs) (cut : Nat) (rate : Int) (nbs : List Neighbour) (m : Memory) (i j : Nat)
    (hnbs : nbs = nbFs ∨ nbs = nbAtk) (hreach : weightTo r nbs i j = 0) :
    pix (grayEd r cut rate nbs m i) j .R = if j = i then sat8 (cutTone cut (pix m i .R).toNat) else pix m j .R := by
  rw [pix_grayEd_red r cut rate nbs m i j fun nb hnb => (ahead_and_nonneg_of_mem nbs hnbs nb hnb).2, hreach, mul_zero,
    add_zero]
  split_ifs
  · rfl
  · exact sat8_byte _

theorem graySettled_own (r : OperandRegs) (cut : Nat) (rate : Int) (nbs : List Neighbour) (hnbs : nbs = nbFs ∨ nbs = nbAtk)
    (m : Memory) (i : Nat) : GraySettled r (grayEd r cut rate nbs m i) i := by
  refine ⟨pix_grayEd_own r cut rate nbs m i .G (by decide), pix_grayEd_own r cut rate nbs m i .B (by decide),
    fun hself => ?_⟩
  rw [pix_grayEd_red_unreached r cut rate nbs m i i hnbs (weightTo_self r nbs hnbs i hself), if_pos rfl]
  exact sat8_cutTone_cases cut _

theorem graySettled_before (r : OperandRegs) (cut : Nat) (rate : Int) (nbs : List Neighbour)
    (hnbs : nbs = nbFs ∨ nbs = nbAtk) (m : Memory) (i j : Nat) (hj : j < i) (h : GraySettled r m j) :
    GraySettled r (grayEd r cut rate nbs m i) j := by
  have hred : pix (grayEd r cut rate nbs m i) j .R = pix m j .R :=
    (pix_grayEd_red_unreached r cut rate nbs m i j hnbs (weightTo_before r nbs hnbs i j hj)).trans (if_neg hj.ne)
  have hother (c : Channel) (hc : c ≠ .R) : pix (grayEd r cut rate nbs m i) j c = pix m j c :=
    pix_grayEd_other r cut rate nbs m i j c hc (.inl hj.ne)
  rw [GraySettled, hred, hother .G (by decide), hother .B (by decide)]
  exact h

/-- R159: the image after a whole gray diffusion. -/
theorem graySettled_foldl (r : OperandRegs) (cut : Nat) (rate : Int) (nbs : List Neighbour)
    (hnbs : nbs = nbFs ∨ nbs = nbAtk) (m : Memory) (n j : Nat) (hj : j < n) :
    let m' := (List.range n).foldl (grayEd r cut rate nbs) m
    pix m' j .G = pix m' j .R ∧ pix m' j .B = pix m' j .R ∧ pix m' j .A = pix m j .A ∧
      (r.noSelfTarget → pix m' j .R = 0 ∨ pix m' j .R = 255) := by
  obtain ⟨hgreen, hblue, htone⟩ := foldl_range_settles (GraySettled r) (grayEd r cut rate nbs)
    (graySettled_own r cut rate nbs hnbs) (graySettled_before r cut rate nbs hnbs) m n j hj
  have halpha := pix_foldl_range (grayEd r cut rate nbs) .A
    (fun m i j => pix_grayEd_other r cut rate nbs m i j .A (by decide) (.inr rfl)) m n j
  exact ⟨hgreen, hblue, halpha, htone⟩

/-- Settles O21: each step settles its own pixel and keeps the settled ones. -/
theorem grayDiffusionLeavesBlackAndWhite : Obligations.GrayDiffusionLeavesBlackAndWhite := by
  intro i s t hi hidle hgeometry hexec u
  obtain ⟨hfs, hfsEnd, hatk, hatkEnd⟩ := grayDiffusionRunsInOrder s hidle hgeometry
  rcases hi with rfl | rfl
  · rw [show u = _ from afterEngine_of_exec hexec hfs hfsEnd]
    exact ⟨rfl, rfl, graySettled_foldl s.regs 129 16 nbFs (.inl rfl) s.bufs.pix s.imageSize⟩
  · rw [show u = _ from afterEngine_of_exec hexec hatk hatkEnd]
    exact ⟨rfl, rfl, graySettled_foldl s.regs s.regs.thresh.toNat 8 nbAtk (.inr rfl) s.bufs.pix s.imageSize⟩

/-! ### The palette commands (R156, R157, R159) -/

/-- Settles O18: DTH_PFS and DTH_PATK map PIXMEM alone, by R155's step. -/
theorem paletteDiffusionRunsInOrder : Obligations.PaletteDiffusionRunsInOrder := by
  intro s hidle hgeometry hleast hmost
  obtain ⟨hfs, hfsEnd⟩ := pixmemCommand_runs .dthPfs dthPfsProgram (palEd s.regs rateFs nbFs) s hidle
    (if_pos ⟨hgeometry, hleast, hmost⟩) rfl rfl (fun _ _ => rfl) rfl
  obtain ⟨hatk, hatkEnd⟩ := pixmemCommand_runs .dthPatk dthPatkProgram (palEd s.regs rateAtk nbAtk) s hidle
    (if_pos ⟨hgeometry, hleast, hmost⟩) rfl rfl (fun _ _ => rfl) rfl
  exact ⟨hfs, hfsEnd, hatk, hatkEnd⟩

theorem firstLeast_lt (key : Nat → Nat) (n : Nat) (hn : 1 ≤ n) : firstLeast key n < n := by
  induction n with
  | zero => omega
  | succ n ih =>
    simp only [firstLeast]
    split_ifs with hless
    · exact Nat.lt_succ_self n
    · cases n with
      | zero => exact Nat.one_pos
      | succ n => exact (ih (Nat.succ_pos n)).trans (Nat.lt_succ_self _)

/-- R40: the entries that a palette can have are the words of PAL0 to PAL3. -/
theorem palEntry_eq_paletteColour (r : OperandRegs) (k : Nat) (hk : k < 4) : r.palEntry k = r.paletteColour k := by
  interval_cases k <;> rfl

/-- A pixel whose colour is one of the palette's. -/
def PaletteSettled (r : OperandRegs) (m : Memory) (j : Nat) : Prop :=
  ∃ k, k < r.palCnt.toNat ∧ pixRgb m j = r.paletteColour k

theorem chosenColour_mem_palette (r : OperandRegs) (m : Memory) (i : Nat) (hleast : 1 ≤ r.palCnt.toNat)
    (hmost : r.palCnt.toNat ≤ 4) : ∃ k, k < r.palCnt.toNat ∧ chosenColour r m i = r.paletteColour k := by
  have hnearest : nearest r .euclid (pixRgb m i) < r.palCnt.toNat := firstLeast_lt _ _ hleast
  exact ⟨_, hnearest, palEntry_eq_paletteColour r _ (hnearest.trans_le hmost)⟩

/-- The colour of a pixel that the error does not reach is the chosen one at the step's own pixel and stays elsewhere. -/
theorem pixRgb_palEd_unreached (r : OperandRegs) (rate : Int) (nbs : List Neighbour) (m : Memory) (i j : Nat)
    (hnbs : nbs = nbFs ∨ nbs = nbAtk) (hreach : weightTo r nbs i j = 0) :
    pixRgb (palEd r rate nbs m i) j = if j = i then chosenColour r m i else pixRgb m j := by
  refine pixRgb_eq_of_channels _ _ _ fun c hc => ?_
  rw [pix_palEd r rate nbs m i j c hc fun nb hnb => (ahead_and_nonneg_of_mem nbs hnbs nb hnb).2, hreach, mul_zero, add_zero]
  split_ifs
  · exact sat8_byte _
  · exact (sat8_byte _).trans (pixRgb_channel m j c hc).symm

theorem paletteSettled_foldl (r : OperandRegs) (rate : Int) (nbs : List Neighbour) (hnbs : nbs = nbFs ∨ nbs = nbAtk)
    (hleast : 1 ≤ r.palCnt.toNat) (hmost : r.palCnt.toNat ≤ 4) (hself : r.noSelfTarget) (m : Memory) (n j : Nat)
    (hj : j < n) : PaletteSettled r ((List.range n).foldl (palEd r rate nbs) m) j := by
  refine foldl_range_settles (PaletteSettled r) _ (fun m i => ?own) (fun m i j hji h => ?before) m n j hj
  case own =>
    rw [PaletteSettled, pixRgb_palEd_unreached r rate nbs m i i hnbs (weightTo_self r nbs hnbs i hself), if_pos rfl]
    exact chosenColour_mem_palette r m i hleast hmost
  case before =>
    rw [PaletteSettled, pixRgb_palEd_unreached r rate nbs m i j hnbs (weightTo_before r nbs hnbs i j hji), if_neg hji.ne]
    exact h

/-- Settles O22: each step gives its own pixel a palette colour and no error goes back. -/
theorem paletteDiffusionLeavesPaletteColours : Obligations.PaletteDiffusionLeavesPaletteColours := by
  intro i s t hi hidle hgeometry hleast hmost hself hexec u
  obtain ⟨hfs, hfsEnd, hatk, hatkEnd⟩ := paletteDiffusionRunsInOrder s hidle hgeometry hleast hmost
  rcases hi with rfl | rfl
  · rw [show u = _ from afterEngine_of_exec hexec hfs hfsEnd]
    exact ⟨rfl, rfl, paletteSettled_foldl s.regs 16 nbFs (.inl rfl) hleast hmost hself s.bufs.pix s.imageSize⟩
  · rw [show u = _ from afterEngine_of_exec hexec hatk hatkEnd]
    exact ⟨rfl, rfl, paletteSettled_foldl s.regs 8 nbAtk (.inr rfl) hleast hmost hself s.bufs.pix s.imageSize⟩

end Sys2Proof.Machine
end

section
/-! PROOFS. The distance keys of R181, the first index of a least key, and the two commands that give them to the host
(43_palette.md R180 to R184). -/

namespace Sys2Proof.Machine

/-! ### The distance keys in exact integers and in 32 bits (R181) -/

theorem channel_difference_sq_le (x y : Byte) :
    ((x.toNat : Int) - y.toNat) * ((x.toNat : Int) - y.toNat) ≤ 255 * 255 := by
  have hx := x.isLt
  have hy := y.isLt
  exact mul_self_le_mul_self_of_le_of_neg_le (by omega) (by omega)

/-- Every term of either key is a square under a weight of 0..2048. -/
theorem weighted_channel_difference_bounds (w : Int) (x y : Byte) (hnonneg : 0 ≤ w) (hle : w ≤ 2048) :
    let d : Int := (x.toNat : Int) - y.toNat
    0 ≤ w * (d * d) ∧ w * (d * d) ≤ 2048 * (255 * 255) :=
  ⟨mul_nonneg hnonneg (mul_self_nonneg _), mul_le_mul hle (channel_difference_sq_le x y) (mul_self_nonneg _) (by decide)⟩

theorem exactKey_bounds (metric : Metric) (a b : Rgb) : 0 ≤ exactKey metric a b ∧ exactKey metric a b < 2 ^ 32 := by
  have hterm (w : Int) (x y : Byte) := weighted_channel_difference_bounds w x y
  cases metric with
  | euclid =>
    have hr := hterm 1 a.r b.r (by decide) (by decide)
    have hg := hterm 1 a.g b.g (by decide) (by decide)
    have hb := hterm 1 a.b b.b (by decide) (by decide)
    simp only [exactKey]
    omega
  | percept =>
    have har := a.r.isLt
    have hbr := b.r.isLt
    have hr := hterm (1024 + (a.r.toNat + b.r.toNat)) a.r b.r (by omega) (by omega)
    have hg := hterm 2048 a.g b.g (by decide) (by decide)
    have hb := hterm (1534 - (a.r.toNat + b.r.toNat)) a.b b.b (by omega) (by omega)
    simp only [exactKey, mul_assoc]
    omega

/-- The model's key, a natural number, is the exact integer: no negative value is cut off. -/
theorem distanceKey_eq_exactKey (metric : Metric) (a b : Rgb) : (distanceKey metric a b : Int) = exactKey metric a b := by
  have hnonneg := (exactKey_bounds metric a b).1
  cases metric with
  | euclid => exact Int.toNat_of_nonneg hnonneg
  | percept =>
    simp only [exactKey, mul_assoc] at hnonneg ⊢
    exact Int.toNat_of_nonneg hnonneg

/-- RESULT_KEY holds either key without truncation. -/
theorem toWord_distanceKey_toNat (metric : Metric) (a b : Rgb) :
    ((toWord (distanceKey metric a b)).toNat : Int) = exactKey metric a b := by
  have hlt := (exactKey_bounds metric a b).2
  rw [← distanceKey_eq_exactKey] at hlt ⊢
  rw [toWord_toNat_of_lt _ (by exact_mod_cast hlt)]

/-! ### The first index of a least key (R181, R184) -/

theorem firstLeast_succ (key : Nat → Nat) (n : Nat) :
    firstLeast key (n + 1) = if key n < key (firstLeast key n) then n else firstLeast key n := rfl

theorem key_firstLeast_le (key : Nat → Nat) (n j : Nat) (hj : j < n) : key (firstLeast key n) ≤ key j := by
  induction n with
  | zero => exact absurd hj (Nat.not_lt_zero j)
  | succ n ih =>
    rw [firstLeast_succ]
    rcases Nat.lt_succ_iff_lt_or_eq.1 hj with hlt | rfl
    · split_ifs with hless
      · exact hless.le.trans (ih hlt)
      · exact ih hlt
    · split_ifs with hless
      · exact le_rfl
      · exact not_lt.1 hless

/-- The last index takes over only under a strictly smaller key, so no earlier index ties with the result. -/
theorem key_firstLeast_lt (key : Nat → Nat) (n j : Nat) (hj : j < firstLeast key n) : key (firstLeast key n) < key j := by
  induction n with
  | zero => exact absurd hj (Nat.not_lt_zero j)
  | succ n ih =>
    rw [firstLeast_succ] at hj ⊢
    split_ifs at hj ⊢ with hless
    · exact hless.trans_le (key_firstLeast_le key n j hj)
    · exact ih hj

/-- R184 for the lookup, in exact keys of the palette's colours. -/
theorem nearest_spec (r : OperandRegs) (metric : Metric) (c : Rgb) (hleast : 1 ≤ r.palCnt.toNat)
    (hmost : r.palCnt.toNat ≤ 4) :
    let key := fun j => exactKey metric c (r.paletteColour j)
    let k := nearest r metric c
    k < r.palCnt.toNat ∧ (∀ j, j < r.palCnt.toNat → key k ≤ key j) ∧ ∀ j, j < k → key k < key j := by
  intro key k
  have hk : k < r.palCnt.toNat := firstLeast_lt _ _ hleast
  have hkey (j : Nat) (hj : j < r.palCnt.toNat) : key j = (distanceKey metric c (r.palEntry j) : Int) := by
    rw [palEntry_eq_paletteColour r j (hj.trans_le hmost), distanceKey_eq_exactKey]
  refine ⟨hk, fun j hj => ?least, fun j hj => ?first⟩
  case least =>
    rw [hkey k hk, hkey j hj]
    exact_mod_cast key_firstLeast_le (fun i => distanceKey metric c (r.palEntry i)) r.palCnt.toNat j hj
  case first =>
    rw [hkey k hk, hkey j (hj.trans hk)]
    exact_mod_cast key_firstLeast_lt (fun i => distanceKey metric c (r.palEntry i)) r.palCnt.toNat j hj

/-! ### PAL_DIST and PAL_NEAREST (R182, R183) -/

/-- Settles O23: PAL_DIST has no check and no loop, and its key fits RESULT_KEY. -/
theorem palDistLeavesTheKey : Obligations.PalDistLeavesTheKey := fun s metric hidle =>
  ⟨exec_of_passed_checks (.palDist metric) s hidle rfl, _,
    afterEngine_started (.palDist metric) (palDistProgram metric) s rfl, toWord_distanceKey_toNat metric _ _⟩

/-- Settles O24: PAL_NEAREST leaves the index of `nearest`, which is the first of the least keys, and its key. -/
theorem palNearestIsFirstLeast : Obligations.PalNearestIsFirstLeast := by
  intro s metric hidle hleast hmost key
  obtain ⟨hk, hmin, hfirst⟩ := nearest_spec s.regs metric (colourOf s.regs.colorA) hleast hmost
  refine ⟨exec_of_passed_checks (.palNearest metric) s hidle (if_pos ⟨hleast, hmost⟩), nearest s.regs metric _, _, hk,
    afterEngine_started (.palNearest metric) (palNearestProgram metric) s rfl, ?_, hmin, hfirst⟩
  rw [toWord_distanceKey_toNat, palEntry_eq_paletteColour s.regs _ (hk.trans_le hmost)]
  rfl

end Sys2Proof.Machine
end

section
/-! PROOFS. The bit-plane packer (44_pack.md R200 to R208): what a byte of a plane holds, the loops that write PACKMEM alone and
what they leave at each address, the three commands, and the image that their planes give back. -/

namespace Sys2Proof.Machine

/-! ### A byte of a plane (R201, R206) -/

theorem planeByte_holds (bit : Nat → Bool) (inv : Bool) (b : Nat) : planeHolds (planeByte bit inv b) bit inv b := by
  intro k hk
  have hbit := packByte_bit bit b k hk
  cases inv with
  | false => rw [Bool.xor_false]; exact hbit
  | true =>
    have hnot : (~~~packByte bit b).getLsbD (7 - k) = !bit (8 * b + k) := by
      rw [BitVec.getLsbD_not, hbit, decide_eq_true (by omega), Bool.true_and]
    rw [Bool.xor_true]
    exact hnot

/-- Without inversion, pixel `i` is found again in bit `7 - i mod 8` of byte `i div 8`. -/
theorem planeHolds_pixel (v : Byte) (bit : Nat → Bool) (i : Nat) (h : planeHolds v bit false (i / 8)) :
    v.getLsbD (7 - i % 8) = bit i := by
  rw [h (i % 8) (Nat.mod_lt i (by decide)), Nat.div_add_mod, Bool.xor_false]

/-! ### Loops that write PACKMEM alone (R141, R203) -/

/-- Such a loop is a fold over PACKMEM in which PIXMEM keeps the value it had before the loop. -/
theorem PixelProgram.loop_of_pack_body (p : PixelProgram) (c : Config) (r : OperandRegs)
    (f : Memory → Memory → Nat → Memory) (hbody : ∀ k b, p.body c r k b = { b with pack := f b.pix b.pack k })
    (n : Nat) (b : Buffers) : p.loop c r 0 n b = { b with pack := (List.range n).foldl (f b.pix) b.pack } := by
  rw [p.loop_from_zero]
  exact List.foldl_hom (fun m => { b with pack := m }) (g₁ := f b.pix) (g₂ := fun b i => p.body c r i b)
    fun m k => hbody k _

/-- A byte that no index of a loop writes is as before. -/
theorem memByte_foldl_range_of_unwritten (f : Memory → Nat → Memory) (sp : Space) (a n : Nat) (m : Memory)
    (hkeep : ∀ u i, i < n → memByte sp (f u i) a = memByte sp u a) :
    memByte sp ((List.range n).foldl f m) a = memByte sp m a :=
  foldl_keeps (fun u => memByte sp u a = memByte sp m a) f _ m rfl fun u i hi hu =>
    (hkeep u i (List.mem_range.1 hi)).trans hu

/-- A byte that index `k` of a loop writes and no later index does is what index `k` wrote. -/
theorem memByte_foldl_range_of_written (f : Memory → Nat → Memory) (sp : Space) (a k n : Nat) (v : Byte) (m : Memory)
    (hk : k < n) (hwrite : ∀ u, memByte sp (f u k) a = v)
    (hkeep : ∀ u i, k < i → i < n → memByte sp (f u i) a = memByte sp u a) :
    memByte sp ((List.range n).foldl f m) a = v := by
  induction n with
  | zero => exact absurd hk (Nat.not_lt_zero k)
  | succ n ih =>
    rw [List.range_succ, List.foldl_append, List.foldl_cons, List.foldl_nil]
    rcases Nat.lt_succ_iff_lt_or_eq.1 hk with hlt | rfl
    · rw [hkeep _ n hlt (Nat.lt_succ_self n)]
      exact ih hlt fun u i hki hin => hkeep u i hki (Nat.lt_succ_of_lt hin)
    · exact hwrite _

/-- Byte `k` of a plane whose first byte stands at `dst`. -/
def putPlaneByte (dst : Nat) (bit : Nat → Bool) (inv : Bool) (m : Memory) (k : Nat) : Memory :=
  memPut m (dst + k) (planeByte bit inv k)

theorem memByte_putPlaneByte_same (dst : Nat) (bit : Nat → Bool) (inv : Bool) (m : Memory) (k : Nat) :
    memByte .packmem (putPlaneByte dst bit inv m k) (dst + k) = planeByte bit inv k :=
  memByte_memPut_same _ _ _ _

theorem memByte_putPlaneByte_other (dst : Nat) (bit : Nat → Bool) (inv : Bool) (m : Memory) (k a : Nat) (h : a ≠ dst + k) :
    memByte .packmem (putPlaneByte dst bit inv m k) a = memByte .packmem m a :=
  memByte_memPut_other _ _ _ _ _ h

/-! ### The PACK commands' acceptance and end (R110, R112, R203) -/

theorem checkPack_eq_none (planes : Nat) (s : State) (hgeometry : s.geometryHolds) (hsize : s.imageSize % 8 = 0)
    (hrange : s.regs.packDst.toNat + planes * (s.imageSize / 8) ≤ s.cfg.packBytes) : checkPack planes s = none := by
  rw [checkPack_eq, if_neg (not_not.2 hgeometry), if_neg (not_not.2 hsize), if_pos hrange]

/-- A PACK command is accepted, and the Engine ends it with its map folded over PACKMEM, one index for each byte of a plane. -/
theorem packCommand_runs (i : Instr) (p : PixelProgram) (planes : Nat) (f : Memory → Memory → Nat → Memory) (s : State)
    (hidle : s.busy = false) (hcheck : checkPack planes s = none) (hexec : exec i s = acceptPixel i (checkPack planes) s)
    (hp : pixelProgramOf i = some p) (hcount : p.count s.regs = s.imageSize / 8)
    (hbody : ∀ k b, p.body s.cfg s.regs k b = { b with pack := f b.pix b.pack k }) :
    exec i s = .next (s.started i) ∧
    (s.started i).afterEngine (s.imageSize / 8) = s.doneAfter i (s.imageSize / 8)
      { s.bufs with pack := (List.range (s.imageSize / 8)).foldl (f s.bufs.pix) s.bufs.pack }
      (p.finish s.regs s.results) := by
  have hend := afterEngine_started i p s hp
  rw [hcount, p.loop_of_pack_body s.cfg s.regs f hbody] at hend
  refine ⟨?_, hend⟩
  rw [hexec, started_of_pixel i s (by rw [hp]; rfl)]
  exact acceptCommand_passed i .pixel (checkPack planes) (fun t => t) s hidle hcheck

/-! ### One plane (R203, R204) -/

/-- What PACK_BW and PACK_RED have in common: the command writes the plane of its test at PACK_DST, and no other byte. -/
theorem planeCommand_runs (i : Instr) (bit : Rgb → Bool) (inv : Bool) (s : State) (hidle : s.busy = false)
    (hcheck : checkPack 1 s = none) (hexec : exec i s = acceptPixel i (checkPack 1) s)
    (hp : pixelProgramOf i = some (planeProgram bit inv)) :
    exec i s = .next (s.started i) ∧
    ∃ m, (s.started i).afterEngine (s.imageSize / 8) = s.doneAfter i (s.imageSize / 8) { s.bufs with pack := m }
        { s.results with packLen := BitVec.ofNat 32 (s.imageSize / 8) } ∧
      (∀ b, b < s.imageSize / 8 →
        planeHolds (memByte .packmem m (s.regs.packDst.toNat + b)) (fun j => bit (pixRgb s.bufs.pix j)) inv b) ∧
      ∀ a, ¬(s.regs.packDst.toNat ≤ a ∧ a < s.regs.packDst.toNat + s.imageSize / 8) →
        memByte .packmem m a = memByte .packmem s.bufs.pack a := by
  obtain ⟨haccept, hend⟩ := packCommand_runs i (planeProgram bit inv) 1
    (fun px => putPlaneByte s.regs.packDst.toNat (fun j => bit (pixRgb px j)) inv) s hidle hcheck hexec hp rfl
    fun _ _ => rfl
  refine ⟨haccept, _, hend, fun b hb => ?plane, fun a hout => ?outside⟩
  case plane =>
    rw [memByte_foldl_range_of_written _ .packmem _ b _ _ _ hb (fun u => memByte_putPlaneByte_same _ _ _ u b)
      fun u k hbk _ => memByte_putPlaneByte_other _ _ _ u k _ (by omega)]
    exact planeByte_holds _ inv b
  case outside =>
    exact memByte_foldl_range_of_unwritten _ .packmem a _ _ fun u k hk =>
      memByte_putPlaneByte_other _ _ _ u k a (by omega)

/-- Settles O25: both commands write one plane, each by its own test of R200. -/
theorem planePacksWriteTheirPlane : Obligations.PlanePacksWriteTheirPlane := by
  intro s inv hidle hgeometry hsize hrange p hp
  have hcheck : checkPack 1 s = none := checkPack_eq_none 1 s hgeometry hsize (by rwa [one_mul])
  rcases hp with rfl | rfl
  · exact planeCommand_runs (.packBw inv) bitBw inv s hidle hcheck rfl rfl
  · exact planeCommand_runs (.packRed inv) bitRed inv s hidle hcheck rfl rfl

/-! ### Two planes (R205) -/

/-- One index of PACK_4GRAY: a byte of the high plane at `dst`, and one of the low plane `p` bytes behind it. -/
def putGrayBytes (dst p : Nat) (inv : Bool) (px m : Memory) (k : Nat) : Memory :=
  putPlaneByte (dst + p) (fun j => grayLow (pix px j .R)) inv
    (putPlaneByte dst (fun j => grayHigh (pix px j .R)) inv m k) k

theorem memByte_putGrayBytes_high (dst p : Nat) (inv : Bool) (px m : Memory) (k : Nat) (hp : 0 < p) :
    memByte .packmem (putGrayBytes dst p inv px m k) (dst + k) = planeByte (fun j => grayHigh (pix px j .R)) inv k := by
  rw [putGrayBytes, memByte_putPlaneByte_other _ _ _ _ _ _ (by omega), memByte_putPlaneByte_same]

theorem memByte_putGrayBytes_low (dst p : Nat) (inv : Bool) (px m : Memory) (k : Nat) :
    memByte .packmem (putGrayBytes dst p inv px m k) (dst + p + k) = planeByte (fun j => grayLow (pix px j .R)) inv k :=
  memByte_putPlaneByte_same _ _ _ _ _

theorem memByte_putGrayBytes_other (dst p : Nat) (inv : Bool) (px m : Memory) (k a : Nat) (hhigh : a ≠ dst + k)
    (hlow : a ≠ dst + p + k) : memByte .packmem (putGrayBytes dst p inv px m k) a = memByte .packmem m a := by
  rw [putGrayBytes, memByte_putPlaneByte_other _ _ _ _ _ _ hlow, memByte_putPlaneByte_other _ _ _ _ _ _ hhigh]

/-- Settles O26: no later index of the loop writes to a byte of either plane, since the planes are `N/8` bytes apart. -/
theorem fourGrayPackWritesTwoPlanes : Obligations.FourGrayPackWritesTwoPlanes := by
  intro s inv hidle hgeometry hsize hrange
  obtain ⟨haccept, hend⟩ := packCommand_runs (.pack4gray inv) (pack4grayProgram inv) 2
    (putGrayBytes s.regs.packDst.toNat (s.imageSize / 8) inv) s hidle (checkPack_eq_none 2 s hgeometry hsize hrange)
    rfl rfl rfl fun _ _ => rfl
  refine ⟨haccept, _, hend, fun b hb => ⟨?high, ?low⟩, fun a hout => ?outside⟩
  case high =>
    rw [memByte_foldl_range_of_written _ .packmem _ b _ _ _ hb
      (fun u => memByte_putGrayBytes_high _ _ _ _ u b (Nat.zero_lt_of_lt hb))
      fun u k hbk _ => memByte_putGrayBytes_other _ _ _ _ u k _ (by omega) (by omega)]
    exact planeByte_holds _ inv b
  case low =>
    rw [memByte_foldl_range_of_written _ .packmem _ b _ _ _ hb (fun u => memByte_putGrayBytes_low _ _ _ _ u b)
      fun u k hbk hk => memByte_putGrayBytes_other _ _ _ _ u k _ (by omega) (by omega)]
    exact planeByte_holds _ inv b
  case outside =>
    exact memByte_foldl_range_of_unwritten _ .packmem a _ _ fun u k hk =>
      memByte_putGrayBytes_other _ _ _ _ u k a (by omega) (by omega)

/-! ### The image from its planes (R208) -/

/-- On black and white, R200's test of PACK_BW is the question whether the colour is white. -/
theorem bitBw_eq_true_iff (c : Rgb) (h : c = ⟨0, 0, 0⟩ ∨ c = ⟨255, 255, 255⟩) :
    bitBw c = true ↔ c = ⟨255, 255, 255⟩ := by
  rcases h with rfl | rfl <;> decide

/-- R205: a level is below 4, so its two bits are all of it. -/
theorem grayLevel_eq_bits (v : Byte) : v.toNat / 85 = 2 * (grayHigh v).toNat + (grayLow v).toNat := by
  have hv := v.isLt
  simp only [grayHigh, grayLow, grayLevel, beq_eq_decide, Bool.toNat, Bool.cond_decide]
  split_ifs <;> omega

/-- Settles O27: the bit of pixel `i` in its plane is the plane's test of that pixel. -/
theorem packedPlanesGiveTheImageBack : Obligations.PackedPlanesGiveTheImageBack := by
  intro s t hidle hgeometry hsize pack
  have hbyte (i : Nat) (hi : i < s.imageSize) : i / 8 < s.imageSize / 8 := by omega
  refine ⟨fun hrange hexec himage i hi => ?blackWhite, fun hrange hexec i hi => ?gray⟩
  case blackWhite =>
    obtain ⟨haccept, m, hend, hplane, -⟩ :=
      planePacksWriteTheirPlane s false hidle hgeometry hsize hrange (.packBw false, _) (.inl rfl)
    rw [show pack = m from congrArg (·.bufs.pack) (afterEngine_of_exec hexec haccept hend),
      planeHolds_pixel _ _ i (hplane (i / 8) (hbyte i hi))]
    exact (bitBw_eq_true_iff (pixRgb s.bufs.pix i) (himage i hi)).symm
  case gray =>
    obtain ⟨haccept, m, hend, hplanes, -⟩ :=
      fourGrayPackWritesTwoPlanes s false hidle hgeometry hsize hrange
    obtain ⟨hhigh, hlow⟩ := hplanes (i / 8) (hbyte i hi)
    rw [show pack = m from congrArg (·.bufs.pack) (afterEngine_of_exec hexec haccept hend),
      planeHolds_pixel _ _ i hhigh, planeHolds_pixel _ _ i hlow]
    exact grayLevel_eq_bits (pix s.bufs.pix i .R)

end Sys2Proof.Machine
end

section
/-! PROOFS. The Engine's steps of a command, each as one record (45_transport.md R224 to R233, R240 to R242, R248): a PIXEL
command by turns, CONNECT, and a session's frames, waits and drain. -/

namespace Sys2Proof.Machine

/-! ### Either pace (R224, S10; log entry 6) -/

/-- R112's checks do not look at the pace. -/
theorem firstFailedCheck_pace (i : Instr) (s : State) (pace : Pace) :
    firstFailedCheck { s with pace := pace } i = firstFailedCheck s i := by
  cases i <;> rfl

theorem started_withPace (i : Instr) (s : State) (pace : Pace) :
    State.started { s with pace := pace } i = { s.started i with pace := pace } := by
  cases i <;> rfl

/-- The delivery of a command does the same at any pace. -/
theorem exec_withPace (i : Instr) (s t : State) (pace : Pace) (h : exec i s = .next t) :
    exec i { s with pace := pace } = .next { t with pace := pace } := by
  rcases exec_cases i s t h with ⟨hbusy, rfl⟩ | ⟨hidle, code, hfail, rfl⟩ | ⟨hidle, hpass, rfl⟩
  · rw [exec_eq]; exact if_pos hbusy
  · exact exec_of_failed_check i _ code hidle ((firstFailedCheck_pace i s pace).trans hfail)
  · rw [← started_withPace]
    exact exec_of_passed_checks i _ hidle ((firstFailedCheck_pace i s pace).trans hpass)

/-- By turns, one step for each index left and one more take a command to its end, wherever its cursor stands. -/
theorem PixelProgram.engineTurn_iterate_left (p : PixelProgram) (s : State) (hphase : s.engine.phase = .pixel)
    (hp : pixelProgramOf s.engine.cur = some p) (hpace : s.pace = .byTurns) :
    engineTurn^[p.count s.latched - s.engine.pixCursor + 1] s =
      p.last (p.advance (p.count s.latched - s.engine.pixCursor) s) := by
  rcases le_total s.engine.pixCursor (p.count s.latched) with hle | hpast
  · exact p.engineTurn_iterate _ s hphase hp hpace (by omega)
  · rw [Nat.sub_eq_zero_of_le hpast, p.advance_zero, Function.iterate_one, p.engineTurn_byTurns s hphase hp hpace,
      p.runIndex_of_none_left s hpast]

/-- Settles O28: by turns and at once the same indices are run, and then the same last step. -/
theorem turnsAgreeWithOneStep : Obligations.TurnsAgreeWithOneStep := by
  refine ⟨fun i s t h => ⟨exec_withPace i s t _ h, exec_withPace i s t _ h⟩, fun p s hphase hp hpace => ?_⟩
  have hwhole : engineTurn s = p.last (p.advance (p.count s.latched - s.engine.pixCursor) s) :=
    (engineTurn_pixel s p hphase hp).trans (p.turn_atOnce s hpace)
  rw [hwhole]
  exact p.engineTurn_iterate_left { s with pace := .byTurns } hphase hp rfl

/-! ### CONNECT (R248) -/

/-- Settles O32: acceptance under R112's empty row, then the whole of R248 in one step. -/
theorem connectCompletesAtOnce : Obligations.ConnectCompletesAtOnce :=
  ⟨fun s hidle => ⟨exec_of_passed_checks .connect s hidle rfl, engineTurn_connect (s.started .connect) rfl rfl⟩,
    engineTurn_connect⟩

/-! ### One Engine step of a session (R230, R232, R233) -/

theorem txqHasSpace_iff (s : State) : s.txqHasSpace = true ↔ s.tx.queue.length < s.cfg.txqDepth := decide_eq_true_iff

theorem txqHasSpace_eq_false_iff (s : State) : s.txqHasSpace = false ↔ s.cfg.txqDepth ≤ s.tx.queue.length :=
  decide_eq_false_iff_not.trans not_lt

/-- A running session has a program, and its Engine steps are the program's. -/
theorem exists_session_program (s : State) (h : s.sessionRunning = true) :
    ∃ p, sessionProgramOf s.engine.cur = some p ∧ engineTurn s = p.turn s := by
  obtain ⟨hphase, hsome⟩ := (sessionRunning_iff s).1 h
  obtain ⟨p, hp⟩ := Option.isSome_iff_exists.1 hsome
  exact ⟨p, hp, engineTurn_session s p hphase hp⟩

namespace SessionProgram

variable (p : SessionProgram) (s : State)

theorem turn_of_space (hw : s.engine.sched = .run ∨ s.engine.sched = .wSpace)
    (hspace : s.tx.queue.length < s.cfg.txqDepth) : p.turn s = p.append s := by
  rw [← txqHasSpace_iff] at hspace
  rcases hw with hw | hw <;> rw [turn, hw] <;> exact if_pos hspace

theorem turn_of_full_run (hw : s.engine.sched = .run) (hfull : s.cfg.txqDepth ≤ s.tx.queue.length) :
    p.turn s = s.enterWait .wSpace := by
  rw [turn, hw]
  exact if_neg (by rw [(txqHasSpace_eq_false_iff s).2 hfull]; decide)

theorem turn_of_drained (hw : s.engine.sched = .wDrain) (hq : s.tx.queue = []) (hpend : s.tx.ackPending = false) :
    p.turn s = s.complete := by
  rw [turn, hw]
  exact if_pos (by rw [State.drained, hq, hpend]; rfl)

theorem append_of_acked (h : (p.current s).ack = true) : p.append s = { s with
    engine := { s.engine with sched := .wAck }
    tx := { queue := s.tx.queue ++ [p.current s], ackPending := true, waitCnt := 0 } } :=
  if_pos h

theorem append_of_unacked (h : (p.current s).ack = false) : p.append s = p.emitReturn (s.enqueue (p.current s)) :=
  if_neg (by rw [current] at h; rw [h]; decide)

/-- When emit returns: a chunk is counted (R241), and the next frame or the drain is due (R233). -/
theorem emitReturn_eq : p.emitReturn s = { s with
    engine := { s.engine with
      chunkCursor := s.engine.chunkCursor + 1
      sched := if s.engine.chunkCursor + 1 ≤ p.lastFrame s.latched then .run else .wDrain }
    tx := { s.tx with
      waitCnt := if s.engine.chunkCursor + 1 ≤ p.lastFrame s.latched then s.tx.waitCnt else 0 }
    progress :=
      if p.progress s.engine.chunkCursor then { s.progress with bulkIdx := toWord s.engine.chunkCursor } else s.progress
    status := if p.progress s.engine.chunkCursor then { s.status with prog := true } else s.status } := by
  unfold emitReturn
  by_cases hchunk : p.progress s.engine.chunkCursor = true <;>
    by_cases hmore : s.engine.chunkCursor + 1 ≤ p.lastFrame s.latched <;> simp [hchunk, hmore, State.enterWait]

end SessionProgram

/-- Settles O36: drain() of whichever session runs. -/
theorem drainEndsTheCommand : Obligations.DrainEndsTheCommand := by
  intro s hrun hw hq hpend
  obtain ⟨p, -, hturn⟩ := exists_session_program s hrun
  exact hturn.trans (p.turn_of_drained s hw hq hpend)

/-- R232: with TXQ full a session that has a frame to send waits for space. -/
theorem engineTurn_of_full_run (s : State) (hrun : s.sessionRunning = true) (hw : s.engine.sched = .run)
    (hfull : s.cfg.txqDepth ≤ s.tx.queue.length) :
    engineTurn s = { s with engine := { s.engine with sched := .wSpace }, tx := { s.tx with waitCnt := 0 } } := by
  obtain ⟨p, -, hturn⟩ := exists_session_program s hrun
  exact hturn.trans (p.turn_of_full_run s hw hfull)

/-- R232, R10: with TXQ full the wait for space goes on. -/
theorem engineTurn_of_full_wSpace (s : State) (hrun : s.sessionRunning = true) (hw : s.engine.sched = .wSpace)
    (hfull : s.cfg.txqDepth ≤ s.tx.queue.length) : engineTurn s = s := by
  refine engineTurn_of_waiting s ?_
  rw [State.waiting, hrun, hw, Bool.true_and, (txqHasSpace_eq_false_iff s).2 hfull]
  rfl

/-! ### FRAME_WR (R226, R44) -/

/-- R44: within the 20 bytes of FRAME_DATA0 to FRAME_DATA4, byte by byte. -/
theorem frameByte_eq (r : OperandRegs) (k : Nat) (hk : k < 20) : r.frameByte k = r.frameDataByte k := by
  have hreg : k / 4 < 5 := by omega
  unfold OperandRegs.frameByte OperandRegs.frameDataByte
  interval_cases k / 4 <;> rfl

theorem frameProgram_frameAt (fop : Byte) (len : Nat) (ack : Bool) (hlen : len ≤ 19) (r : OperandRegs) (pack : Memory)
    (c : Nat) : (frameProgram fop len ack).frameAt r pack c = r.framedData fop len ack := by
  have hbytes : (List.range len).map r.frameByte = (List.range len).map r.frameDataByte :=
    List.map_congr_left fun k hk => frameByte_eq r k (by have := List.mem_range.1 hk; omega)
  exact congrArg (fun data => ({ bytes := fop :: data, ack := ack } : TxEntry)) hbytes

/-- FRAME_WR's one frame, once there is space. -/
theorem engineTurn_frameWr (s : State) (fop : Byte) (len : Nat) (ack : Bool) (hphase : s.engine.phase = .xport)
    (hcur : s.engine.cur = .frameWr fop len ack) (hlen : len ≤ 19)
    (hw : s.engine.sched = .run ∨ s.engine.sched = .wSpace) (hcursor : s.engine.chunkCursor = 0)
    (hspace : s.tx.queue.length < s.cfg.txqDepth) :
    engineTurn s = { s with
      engine := { s.engine with chunkCursor := (if ack then 0 else 1), sched := (if ack then .wAck else .wDrain) }
      tx :=
        { queue := s.tx.queue ++ [s.latched.framedData fop len ack]
          ackPending := ack || s.tx.ackPending
          waitCnt := 0 } } := by
  have hp : sessionProgramOf s.engine.cur = some (frameProgram fop len ack) := by rw [hcur]; rfl
  have hframe : (frameProgram fop len ack).current s = s.latched.framedData fop len ack :=
    frameProgram_frameAt fop len ack hlen _ _ _
  rw [engineTurn_session s _ hphase hp, SessionProgram.turn_of_space _ s hw hspace]
  cases ack with
  | true => rw [SessionProgram.append_of_acked _ s rfl, hframe, ← hcursor]; rfl
  | false =>
    rw [SessionProgram.append_of_unacked _ s rfl, hframe, SessionProgram.emitReturn_eq]
    simp [State.enqueue, frameProgram, hcursor]

theorem frameWr_passes (s : State) (fop : Byte) (len : Nat) (ack : Bool) (hlen : len ≤ 19) (hlink : s.linkUsable) :
    firstFailedCheck s (.frameWr fop len ack) = none :=
  (if_neg (by omega)).trans (if_pos hlink)

/-- Settles O30: acceptance, then the one frame or the wait for space. -/
theorem frameWrQueuesItsFrame : Obligations.FrameWrQueuesItsFrame := by
  refine ⟨fun s fop len ack hidle hlen hlink => ⟨?accepted, ?step⟩, engineTurn_frameWr⟩
  case accepted => exact exec_of_passed_checks _ s hidle (frameWr_passes s fop len ack hlen hlink)
  case step =>
    split
    next hspace =>
      exact engineTurn_frameWr (s.started (.frameWr fop len ack)) fop len ack rfl rfl hlen (.inl rfl) rfl hspace
    next hfull => exact engineTurn_of_full_run (s.started (.frameWr fop len ack)) rfl rfl (not_lt.1 hfull)

/-! ### BULK (R240, R241, R242) -/

theorem bulkProgram_opening (fop : Byte) (r : OperandRegs) (pack : Memory) :
    (bulkProgram fop).frameAt r pack 0 = sendCmdEntry fop := rfl

theorem bulkProgram_chunk (fop : Byte) (r : OperandRegs) (pack : Memory) (c : Nat) (hc : 1 ≤ c) :
    (bulkProgram fop).frameAt r pack c = bulkChunk r pack c :=
  if_neg (by omega)

/-- When emit of BULK's frame `c` returns. -/
theorem bulkProgram_emitReturn (fop : Byte) (s : State) (c : Nat) (hc : s.engine.chunkCursor = c) :
    (bulkProgram fop).emitReturn s = { s with
      engine := { s.engine with
        chunkCursor := c + 1
        sched := if c < (s.latched.bulkLen.toNat + 18) / 19 then .run else .wDrain }
      tx := { s.tx with waitCnt := if c < (s.latched.bulkLen.toNat + 18) / 19 then s.tx.waitCnt else 0 }
      progress := if 1 ≤ c then { s.progress with bulkIdx := BitVec.ofNat 32 c } else s.progress
      status := if 1 ≤ c then { s.status with prog := true } else s.status } := by
  have hchunk : ((bulkProgram fop).progress c = true) = (1 ≤ c) := decide_eq_true_eq
  rw [SessionProgram.emitReturn_eq, hc]
  simp only [hchunk]
  rfl

/-- The frame at a BULK's cursor goes to TXQ's tail, once there is space. -/
theorem engineTurn_bulk_append (s : State) (fop : Byte) (hphase : s.engine.phase = .xport)
    (hcur : s.engine.cur = .bulk fop) (hw : s.engine.sched = .run ∨ s.engine.sched = .wSpace)
    (hspace : s.tx.queue.length < s.cfg.txqDepth) : engineTurn s = (bulkProgram fop).append s := by
  rw [engineTurn_session s (bulkProgram fop) hphase (by rw [hcur]; rfl), SessionProgram.turn_of_space _ s hw hspace]

/-- BULK's SEND_CMD frame, once there is space. -/
theorem engineTurn_bulk_opening (s : State) (fop : Byte) (hphase : s.engine.phase = .xport)
    (hcur : s.engine.cur = .bulk fop) (hw : s.engine.sched = .run ∨ s.engine.sched = .wSpace)
    (hcursor : s.engine.chunkCursor = 0) (hspace : s.tx.queue.length < s.cfg.txqDepth) :
    engineTurn s = { s with
      engine := { s.engine with sched := .wAck }
      tx := { queue := s.tx.queue ++ [sendCmdEntry fop], ackPending := true, waitCnt := 0 } } := by
  have hframe : (bulkProgram fop).current s = sendCmdEntry fop := by
    rw [SessionProgram.current, hcursor, bulkProgram_opening]
  rw [engineTurn_bulk_append s fop hphase hcur hw hspace,
    SessionProgram.append_of_acked _ s (by rw [hframe]; rfl), hframe]

theorem bulk_passes (s : State) (fop : Byte) (hlink : s.linkUsable)
    (hrange : s.regs.bulkSrc.toNat + s.regs.bulkLen.toNat ≤ s.cfg.packBytes) :
    firstFailedCheck s (.bulk fop) = none :=
  (if_neg (not_lt.2 hrange)).trans (if_pos hlink)

/-- Settles O31: acceptance, then the SEND_CMD frame or the wait for space. -/
theorem bulkOpensItsTransfer : Obligations.BulkOpensItsTransfer := by
  refine ⟨fun s fop hidle hlink hrange => ⟨?accepted, ?step⟩, engineTurn_bulk_opening⟩
  case accepted => exact exec_of_passed_checks _ s hidle (bulk_passes s fop hlink hrange)
  case step =>
    split
    next hspace => exact engineTurn_bulk_opening (s.started (.bulk fop)) fop rfl rfl (.inl rfl) rfl hspace
    next hfull => exact engineTurn_of_full_run (s.started (.bulk fop)) rfl rfl (not_lt.1 hfull)

section Chunk

variable (s : State) (fop : Byte) (c : Nat)

theorem bulkProgram_current (hcursor : s.engine.chunkCursor = c) (hc : 1 ≤ c) :
    (bulkProgram fop).current s = bulkChunk s.latched s.bufs.pack c := by
  rw [SessionProgram.current, hcursor, bulkProgram_chunk fop _ _ c hc]

/-- An acknowledged chunk holds the Engine. -/
theorem engineTurn_bulk_acked (hphase : s.engine.phase = .xport) (hcur : s.engine.cur = .bulk fop)
    (hw : s.engine.sched = .run ∨ s.engine.sched = .wSpace) (hcursor : s.engine.chunkCursor = c) (hc : 1 ≤ c)
    (hspace : s.tx.queue.length < s.cfg.txqDepth) (hack : c % (s.latched.interleave.toNat + 1) = 0) :
    engineTurn s = { s with
      tx := { queue := s.tx.queue ++ [bulkChunk s.latched s.bufs.pack c], ackPending := true, waitCnt := 0 }
      engine := { s.engine with sched := .wAck } } := by
  have hframe := bulkProgram_current s fop c hcursor hc
  rw [engineTurn_bulk_append s fop hphase hcur hw hspace,
    SessionProgram.append_of_acked _ s (by rw [hframe]; exact decide_eq_true hack), hframe]

/-- An unacknowledged chunk is counted at once. -/
theorem engineTurn_bulk_unacked (hphase : s.engine.phase = .xport) (hcur : s.engine.cur = .bulk fop)
    (hw : s.engine.sched = .run ∨ s.engine.sched = .wSpace) (hcursor : s.engine.chunkCursor = c) (hc : 1 ≤ c)
    (hspace : s.tx.queue.length < s.cfg.txqDepth) (hack : ¬c % (s.latched.interleave.toNat + 1) = 0) :
    engineTurn s = { s with
      tx :=
        { s.tx with
          queue := s.tx.queue ++ [bulkChunk s.latched s.bufs.pack c]
          waitCnt := if c < (s.latched.bulkLen.toNat + 18) / 19 then s.tx.waitCnt else 0 }
      engine :=
        { s.engine with
          chunkCursor := c + 1
          sched := if c < (s.latched.bulkLen.toNat + 18) / 19 then .run else .wDrain }
      progress := { s.progress with bulkIdx := BitVec.ofNat 32 c }
      status := { s.status with prog := true } } := by
  have hframe := bulkProgram_current s fop c hcursor hc
  rw [engineTurn_bulk_append s fop hphase hcur hw hspace,
    SessionProgram.append_of_unacked _ s (by rw [hframe]; exact decide_eq_false hack), hframe,
    bulkProgram_emitReturn fop (s.enqueue _) c hcursor, if_pos hc, if_pos hc]
  rfl

end Chunk

/-- Settles O33: the chunk at the cursor, acknowledged or not, and the two steps of a session with TXQ full. -/
theorem bulkQueuesItsChunks : Obligations.BulkQueuesItsChunks := by
  refine ⟨fun s fop c hphase hcur hw hcursor hc hspace => ?chunk, fun s hrun hfull =>
    ⟨fun hw => engineTurn_of_full_run s hrun hw hfull, fun hw => engineTurn_of_full_wSpace s hrun hw hfull⟩⟩
  case chunk =>
    split
    next hack => exact engineTurn_bulk_acked s fop c hphase hcur hw hcursor hc hspace hack
    next hack => exact engineTurn_bulk_unacked s fop c hphase hcur hw hcursor hc hspace hack

/-! ### The chunks of a payload (R240, R242) -/

theorem chunkLength_bounds (len c : Nat) (hc : 1 ≤ c) (hlast : c ≤ chunkCount len) :
    1 ≤ chunkLength len c ∧ chunkLength len c ≤ 19 := by
  simp only [chunkCount, chunkLength, chunkSize] at hlast ⊢
  omega

/-- The first `n` chunks hold `19 n` bytes of the payload, or all of it. -/
theorem sum_chunkLength (len n : Nat) :
    ((List.range n).map fun c => chunkLength len (c + 1)).sum = min (chunkSize * n) len := by
  induction n with
  | zero => simp
  | succ n ih =>
    rw [List.range_succ, List.map_append, List.sum_append, ih]
    simp only [List.map_singleton, List.sum_singleton, chunkLength, chunkSize, Nat.add_sub_cancel]
    omega

theorem le_chunkSize_mul_chunkCount (len : Nat) : len ≤ chunkSize * chunkCount len := by
  simp only [chunkCount, chunkSize]
  omega

/-- Settles O34: the first ceil(len/19) chunks hold all of the payload. -/
theorem chunksCoverThePayload : Obligations.ChunksCoverThePayload :=
  ⟨fun len => (sum_chunkLength len _).trans (min_eq_right (le_chunkSize_mul_chunkCount len)), chunkLength_bounds, by decide⟩

end Sys2Proof.Machine
end

section
/-! PROOFS. The Link's events and the Clock's step, each as one record (45_transport.md R234 to R237, R245, R246, R250, R252,
R285): takes, responses, the level of the link, notify messages, and the tick. -/

namespace Sys2Proof.Machine

/-! ### Takes (R245, R234, R236) -/

theorem takeable_of_ready (s : State) (f : TxEntry) (rest : List TxEntry) (hup : s.link.up = true)
    (howed : s.link.owed = false) (hq : s.tx.queue = f :: rest) : s.takeable = some (f, rest) := by
  simp [State.takeable, hup, howed, hq]

theorem takeable_of_not_ready (s : State) (h : s.link.up = false ∨ s.link.owed = true ∨ s.tx.queue = []) :
    s.takeable = none := by
  unfold State.takeable
  rcases h with hdown | howed | hq
  · exact if_neg (by simp [hdown])
  · exact if_neg (by simp [howed])
  · split
    · rw [hq]
    · rfl

theorem linkTakeOk_of_head (s : State) (f : TxEntry) (rest : List TxEntry) (hup : s.link.up = true)
    (howed : s.link.owed = false) (hq : s.tx.queue = f :: rest) :
    linkTakeOk s = { s with
      tx := { s.tx with queue := rest, waitCnt := 0 }
      link := { s.link with stream := s.link.stream ++ [f.bytes], owed := f.ack }
      retryCnt := if f.ack then s.retryCnt else 0 } := by
  rw [linkTakeOk, takeable_of_ready s f rest hup howed hq]
  cases hack : f.ack with
  | true => simp [hack, State.clearWait]
  | false => simp [hack, howed, State.clearWait, State.writeSucceeded]

theorem linkTakeFail_of_acked (s : State) (f : TxEntry) (rest : List TxEntry) (h : s.takeable = some (f, rest))
    (hack : f.ack = true) : linkTakeFail s = s := by
  rw [linkTakeFail, h]
  exact if_pos hack

theorem linkTakeFail_of_no_session (s : State) (f : TxEntry) (rest : List TxEntry) (h : s.takeable = some (f, rest))
    (hack : f.ack = false) (hno : s.sessionRunning = false) :
    linkTakeFail s = { s with tx := { s.tx with queue := rest, waitCnt := 0 } } := by
  rw [linkTakeFail, h]
  exact (if_neg (by rw [hack]; decide)).trans (if_neg (ne_true_of_eq_false hno))

theorem linkTakes_of_not_takeable (s : State) (h : s.takeable = none) : linkTakeOk s = s ∧ linkTakeFail s = s := by
  rw [linkTakeOk, linkTakeFail, h]
  exact ⟨rfl, rfl⟩

/-! ### Events that are not enabled (R245; log entry 5) -/

theorem linkResponses_of_not_owed (s : State) (h : s.link.owed = false) : linkRespOk s = s ∧ linkRespFail s = s :=
  ⟨if_neg (ne_true_of_eq_false h), if_neg (ne_true_of_eq_false h)⟩

theorem linkDown_of_down (s : State) (h : s.link.up = false) : linkDown s = s := if_neg (ne_true_of_eq_false h)

theorem linkUp_of_down (s : State) (h : s.link.up = false) : linkUp s = { s with link := { s.link with up := true } } :=
  if_neg (ne_true_of_eq_false h)

theorem linkNotify_of_down (s : State) (m : List Byte) (h : s.link.up = false) : linkNotify m s = s :=
  if_neg (by simp [h])

theorem linkUp_of_up (s : State) (h : s.link.up = true) : linkUp s = s := if_pos h

/-- Settles O37, event by event. -/
theorem linkTakesTheHead : Obligations.LinkTakesTheHead := by
  refine fun s => ⟨fun f rest hup howed hq => ?enabled,
    fun h => linkTakes_of_not_takeable s (takeable_of_not_ready s h), linkResponses_of_not_owed s,
    fun hdown => ⟨linkUp_of_down s hdown, linkDown_of_down s hdown, fun m => linkNotify_of_down s m hdown⟩, linkUp_of_up s⟩
  case enabled =>
    have htake := takeable_of_ready s f rest hup howed hq
    exact ⟨linkTakeOk_of_head s f rest hup howed hq, linkTakeFail_of_acked s f rest htake,
      linkTakeFail_of_no_session s f rest htake⟩

/-! ### Responses (R234, R245, R246) -/

theorem linkRespOk_of_stale (s : State) (howed : s.link.owed = true) (hpend : s.tx.ackPending = false) :
    linkRespOk s = s.answered :=
  (if_pos howed).trans (if_neg (ne_true_of_eq_false hpend))

theorem linkRespFail_of_stale (s : State) (howed : s.link.owed = true) (hpend : s.tx.ackPending = false) :
    linkRespFail s = s.answered := by
  refine (if_pos howed).trans (if_neg ?_)
  rw [Bool.and_eq_true]
  exact fun h => ne_true_of_eq_false hpend h.1

/-- Settles O39: what is owed is cleared, and nothing waits for it. -/
theorem staleResponseIsIgnored : Obligations.StaleResponseIsIgnored := by
  intro s hpend e he
  split
  next howed =>
    rcases he with rfl | rfl
    · exact linkRespOk_of_stale s howed hpend
    · exact linkRespFail_of_stale s howed hpend
  next howed =>
    obtain ⟨hok, hfail⟩ := linkResponses_of_not_owed s (eq_false_of_ne_true howed)
    rcases he with rfl | rfl
    · exact hok
    · exact hfail

/-- The awaited response is a success, and emit of its frame returns (R234; log entry 11). -/
theorem linkRespOk_of_awaited (s : State) (p : SessionProgram) (hphase : s.engine.phase = .xport)
    (hp : sessionProgramOf s.engine.cur = some p) (hw : s.engine.sched = .wAck) (hpend : s.tx.ackPending = true)
    (howed : s.link.owed = true) : linkRespOk s = p.emitReturn s.answered.writeSucceeded.unpended := by
  have hrun : s.sessionRunning = true := (sessionRunning_iff s).2 ⟨hphase, by rw [hp]; rfl⟩
  refine (if_pos howed).trans ((if_pos hpend).trans ?_)
  exact leaveAckWait_eq s.answered.writeSucceeded.unpended p hrun hw hp

theorem linkRespOk_of_awaited_bulk (s : State) (fop : Byte) (c : Nat) (hphase : s.engine.phase = .xport)
    (hcur : s.engine.cur = .bulk fop) (hcursor : s.engine.chunkCursor = c) (hw : s.engine.sched = .wAck)
    (hpend : s.tx.ackPending = true) (howed : s.link.owed = true) :
    linkRespOk s = { s with
      link := { s.link with owed := false }
      tx := { s.tx with ackPending := false, waitCnt := 0 }
      retryCnt := 0
      engine := { s.engine with
        chunkCursor := c + 1
        sched := if c < (s.latched.bulkLen.toNat + 18) / 19 then .run else .wDrain }
      progress := if 1 ≤ c then { s.progress with bulkIdx := BitVec.ofNat 32 c } else s.progress
      status := if 1 ≤ c then { s.status with prog := true } else s.status } := by
  rw [linkRespOk_of_awaited s (bulkProgram fop) hphase (by rw [hcur]; rfl) hw hpend howed,
    bulkProgram_emitReturn fop s.answered.writeSucceeded.unpended c hcursor]
  have hwait : s.answered.writeSucceeded.unpended.tx.waitCnt = 0 := rfl
  rw [hwait, ite_self]
  rfl

theorem linkRespOk_of_awaited_frameWr (s : State) (fop : Byte) (len : Nat) (ack : Bool)
    (hphase : s.engine.phase = .xport) (hcur : s.engine.cur = .frameWr fop len ack) (hw : s.engine.sched = .wAck)
    (hpend : s.tx.ackPending = true) (howed : s.link.owed = true) :
    linkRespOk s = { s with
      link := { s.link with owed := false }
      tx := { s.tx with ackPending := false, waitCnt := 0 }
      retryCnt := 0
      engine := { s.engine with chunkCursor := s.engine.chunkCursor + 1, sched := .wDrain } } := by
  rw [linkRespOk_of_awaited s (frameProgram fop len ack) hphase (by rw [hcur]; rfl) hw hpend howed]
  rfl

/-- Settles O38: emit of the awaited frame returns, for either session. -/
theorem awaitedResponseEndsTheWait : Obligations.AwaitedResponseEndsTheWait := fun s hphase hw hpend howed =>
  ⟨fun fop c hcur hcursor => linkRespOk_of_awaited_bulk s fop c hphase hcur hcursor hw hpend howed,
    fun fop len ack hcur => linkRespOk_of_awaited_frameWr s fop len ack hphase hcur hw hpend howed⟩

/-! ### The link goes down (R252) -/

theorem linkDown_of_up (s : State) (hup : s.link.up = true) :
    linkDown s = if s.sessionRunning then
      State.abortDisconnected { s with link := { s.link with up := false, owed := false } }
    else { s with link := { s.link with up := false, owed := false } } :=
  if_pos hup

/-- Settles O42: with a session running, R252's abort as one record. -/
theorem disconnectAbortsTheSession : Obligations.DisconnectAbortsTheSession := by
  intro s hup
  refine (linkDown_of_up s hup).trans ?_
  rw [State.abortDisconnected_eq]
  rfl

/-! ### Notify (R107, R250, R43) -/

/-- R43: a byte put in front of a little-endian word is its lowest. -/
theorem append_toNat_byte {w : Nat} (v : BitVec w) (b : Byte) : (v ++ b).toNat = v.toNat * 2 ^ 8 + b.toNat := by
  rw [BitVec.toNat_append, ← Nat.shiftLeft_add_eq_or_of_lt b.isLt, Nat.shiftLeft_eq]

/-- R43: the first byte of a message word is its lowest. -/
theorem messageWord_succ (m : List Byte) (start n : Nat) :
    messageWord m start (n + 1) = messageWord m (start + 1) n * 2 ^ 8 + (m.getD start 0).toNat := by
  have hshift : ∀ k, (m.getD (start + (k + 1)) 0).toNat * 2 ^ (8 * (k + 1)) =
      (m.getD (start + 1 + k) 0).toNat * 2 ^ (8 * k) * 2 ^ 8 := fun k => by
    rw [Nat.mul_succ, Nat.pow_add, ← Nat.mul_assoc, Nat.add_assoc start 1 k, Nat.add_comm 1 k]
  rw [messageWord, List.range_succ_eq_map, List.map_cons, List.sum_cons, List.map_map, Nat.add_comm]
  simp only [Function.comp_def, Nat.succ_eq_add_one, hshift, List.sum_map_mul_right]
  rw [Nat.mul_zero, Nat.pow_zero, Nat.mul_one]
  rfl

theorem messageWord_zero (m : List Byte) (start : Nat) : messageWord m start 0 = 0 := rfl

theorem messageWord_four (b0 b1 b2 b3 : Byte) (rest : List Byte) :
    toWord (messageWord (b0 :: b1 :: b2 :: b3 :: rest) 0 4) = b3 ++ b2 ++ b1 ++ b0 := by
  have h0 := b0.isLt
  have h1 := b1.isLt
  have h2 := b2.isLt
  have h3 := b3.isLt
  refine BitVec.eq_of_toNat_eq ?_
  rw [toWord, BitVec.toNat_ofNat, append_toNat_byte, append_toNat_byte, append_toNat_byte]
  simp only [messageWord_succ, messageWord_zero, List.getD_cons_zero, List.getD_cons_succ]
  omega

theorem messageWord_three (b0 b1 b2 b3 b4 b5 b6 : Byte) (rest : List Byte) :
    BitVec.ofNat 24 (messageWord (b0 :: b1 :: b2 :: b3 :: b4 :: b5 :: b6 :: rest) 4 3) = b6 ++ b5 ++ b4 := by
  have h4 := b4.isLt
  have h5 := b5.isLt
  have h6 := b6.isLt
  refine BitVec.eq_of_toNat_eq ?_
  rw [BitVec.toNat_ofNat, append_toNat_byte, append_toNat_byte]
  simp only [messageWord_succ, messageWord_zero, List.getD_cons_zero, List.getD_cons_succ]
  omega

/-- Settles O43: the two lengths of a message, PINCFG's two words byte by byte. -/
theorem notifyRecordsTheDevice : Obligations.NotifyRecordsTheDevice := by
  refine fun s m hup => ⟨fun hshort => ?short, fun b0 b1 b2 b3 b4 b5 b6 b7 rest hm => ?long⟩
  case short =>
    refine if_neg ?_
    rw [hup, Bool.true_and, decide_eq_true_iff]
    omega
  case long =>
    have hlong : (s.link.up && decide (8 ≤ m.length)) = true := by rw [hup, hm]; simp
    refine ⟨_, if_pos hlong, ?_⟩
    rw [hm]
    exact ⟨rfl, messageWord_four b0 b1 b2 b3 _, messageWord_three b0 b1 b2 b3 b4 b5 b6 _⟩

/-! ### The Clock (R235, R236, R286) -/

/-- R237, R280, R285: an abort, with and without budget left. -/
theorem State.abortTransport_record (code : ErrCode) (s : State) : s.abortTransport code = { s with
    tx := { s.tx with queue := [], ackPending := false }
    retryCnt := if s.retryCnt.toNat < 5 then s.retryCnt + 1 else s.retryCnt
    connectReq := s.connectReq || decide (s.retryCnt.toNat < 5)
    error := { code := code, op := s.engine.cur.opcode }
    status := { s.status with err := true, permFail := s.status.permFail || decide (5 ≤ s.retryCnt.toNat) }
    engine := { s.engine with phase := .idle } } := by
  rcases Nat.lt_or_ge s.retryCnt.toNat 5 with hlt | hge
  · rw [s.abortTransport_retry code hlt]
    simp [hlt, State.curOp]
  · rw [s.abortTransport_terminal code hge]
    simp [hge, State.curOp]

/-- The part of a tick that a running session sees: the pulse ends and ELAPSED counts (R235; log entries 10 and 19). -/
def State.ticked (s : State) : State := { s with
  connectReq := false
  progress :=
    { s.progress with elapsed := if s.progress.elapsed = 0xFFFFFFFF then 0xFFFFFFFF else s.progress.elapsed + 1 } }

/-- A tick of a held session that does not time it out. -/
def State.waited (s : State) : State := { s.ticked with tx := { s.tx with waitCnt := s.tx.waitCnt + 1 } }

theorem clockTick_of_session (s : State) (hrun : s.sessionRunning = true) : clockTick s = s.ticked.countWait := by
  have helapsed : State.countElapsed { s with connectReq := false } = s.ticked := by
    refine (if_pos hrun).trans ?_
    rw [elapsed_count]
    rfl
  rw [clockTick, helapsed]

theorem clockTick_of_no_session (s : State) (hno : s.sessionRunning = false) :
    clockTick s = { s with connectReq := false } := by
  have helapsed : State.countElapsed { s with connectReq := false } = { s with connectReq := false } :=
    if_neg (ne_true_of_eq_false hno)
  have hwait : State.waiting { s with connectReq := false } = false :=
    Bool.eq_false_iff.2 fun h => ne_true_of_eq_false hno (State.sessionRunning_of_waiting _ h)
  rw [clockTick, helapsed]
  exact if_neg (ne_true_of_eq_false hwait)

theorem clockTick_of_not_waiting (s : State) (hrun : s.sessionRunning = true) (hno : s.waiting = false) :
    clockTick s = s.ticked := by
  rw [clockTick_of_session s hrun]
  exact if_neg (ne_true_of_eq_false (show s.ticked.waiting = false from hno))

theorem clockTick_of_waiting (s : State) (hwait : s.waiting = true) :
    clockTick s =
      if s.latched.ackTimeout ≠ 0 ∧ s.tx.waitCnt + 1 = s.latched.ackTimeout then s.waited.abortTransport .timeout
      else s.waited := by
  rw [clockTick_of_session s (s.sessionRunning_of_waiting hwait)]
  exact if_pos (show s.ticked.waiting = true from hwait)

/-- Settles O44: no session, a session not held, a wait within its limit, and the tick that reaches the limit. -/
theorem clockTimesTheWait : Obligations.ClockTimesTheWait := by
  refine fun s => ⟨clockTick_of_no_session s, clockTick_of_not_waiting s, fun hwait hwithin => ?within,
    fun hwait hlimited hreached => ?reached⟩
  case within =>
    rw [clockTick_of_waiting s hwait]
    refine if_neg fun h => ?_
    rcases hwithin with hzero | hother
    · exact h.1 hzero
    · exact hother h.2
  case reached =>
    rw [clockTick_of_waiting s hwait, if_pos ⟨hlimited, hreached⟩, State.abortTransport_record]
    rfl

end Sys2Proof.Machine
end

section
/-! PROOFS. A BULK on a cooperative link, from its acceptance to DONE (45_transport.md R233, R240, R241, R245): no step of the
Engine or the Link looks at the turns to come, each round of the schedule delivers one frame, and the drain follows the last. -/

namespace Sys2Proof.Machine

/-! ### No step of the Engine or the Link looks at the turns to come (R224, S11) -/

/-- `s` with other turns to come. -/
def State.withAgenda (a : List Turn) (s : State) : State := { s with agenda := a }

section Agenda

variable (s : State) (a : List Turn)

theorem SessionProgram.emitReturn_withAgenda (p : SessionProgram) :
    p.emitReturn (s.withAgenda a) = (p.emitReturn s).withAgenda a := by
  rw [p.emitReturn_eq, p.emitReturn_eq]
  rfl

theorem SessionProgram.append_withAgenda (p : SessionProgram) : p.append (s.withAgenda a) = (p.append s).withAgenda a := by
  cases hack : (p.current s).ack with
  | true => rw [p.append_of_acked s hack, p.append_of_acked (s.withAgenda a) hack]; rfl
  | false =>
    rw [p.append_of_unacked s hack, p.append_of_unacked (s.withAgenda a) hack]
    exact p.emitReturn_withAgenda (s.enqueue (p.current s)) a

theorem SessionProgram.turn_withAgenda (p : SessionProgram) : p.turn (s.withAgenda a) = (p.turn s).withAgenda a := by
  unfold SessionProgram.turn
  rw [p.append_withAgenda s a, p.emitReturn_withAgenda s a, show (s.withAgenda a).engine.sched = s.engine.sched from rfl]
  cases s.engine.sched with
  | run => exact (apply_ite (State.withAgenda a) (s.txqHasSpace = true) (p.append s) (s.enterWait .wSpace)).symm
  | wSpace => exact (apply_ite (State.withAgenda a) (s.txqHasSpace = true) (p.append s) s).symm
  | wAck => exact (apply_ite (State.withAgenda a) (s.tx.ackPending = true) s (p.emitReturn s)).symm
  | wDrain => exact (apply_ite (State.withAgenda a) (s.drained = true) s.complete s).symm

theorem engineTurn_withAgenda (p : SessionProgram) (hphase : s.engine.phase = .xport)
    (hp : sessionProgramOf s.engine.cur = some p) : engineTurn (s.withAgenda a) = (engineTurn s).withAgenda a := by
  rw [engineTurn_session s p hphase hp, engineTurn_session (s.withAgenda a) p hphase hp, p.turn_withAgenda]

theorem linkTakeOk_withAgenda : linkTakeOk (s.withAgenda a) = (linkTakeOk s).withAgenda a := by
  rw [linkTakeOk, linkTakeOk, show (s.withAgenda a).takeable = s.takeable from rfl]
  cases s.takeable with
  | none => rfl
  | some head =>
    dsimp only
    split
    · rfl
    · rfl

theorem leaveAckWait_withAgenda : (s.withAgenda a).leaveAckWait = s.leaveAckWait.withAgenda a := by
  rw [State.leaveAckWait, State.leaveAckWait, show (s.withAgenda a).engine = s.engine from rfl,
    show (s.withAgenda a).sessionRunning = s.sessionRunning from rfl]
  split
  · cases sessionProgramOf s.engine.cur with
    | none => rfl
    | some p => exact p.emitReturn_withAgenda s a
  · rfl

theorem linkRespOk_withAgenda : linkRespOk (s.withAgenda a) = (linkRespOk s).withAgenda a := by
  rw [linkRespOk, linkRespOk, show (s.withAgenda a).link = s.link from rfl]
  split
  · exact (if_congr Iff.rfl (leaveAckWait_withAgenda s.answered.writeSucceeded.unpended a) rfl).trans
      (apply_ite (State.withAgenda a) (s.tx.ackPending = true) s.answered.writeSucceeded.unpended.leaveAckWait s.answered).symm
  · rfl

end Agenda

/-! ### One round of the schedule (R245) -/

/-- A run with a session's Engine step first. -/
theorem run_engine (n : Nat) (s : State) (rest : List Turn) (p : SessionProgram) (hphase : s.engine.phase = .xport)
    (hp : sessionProgramOf s.engine.cur = some p) :
    Host.Core.run core (n + 1) (s.withAgenda (.engine :: rest)) = Host.Core.run core n ((engineTurn s).withAgenda rest) :=
  run_succ core n _ _ (congrArg Host.Outcome.next (engineTurn_withAgenda s rest p hphase hp))

theorem run_takeOk (n : Nat) (s : State) (rest : List Turn) :
    Host.Core.run core (n + 1) (s.withAgenda (.link .takeOk :: rest)) =
      Host.Core.run core n ((linkTakeOk s).withAgenda rest) :=
  run_succ core n _ _ (congrArg Host.Outcome.next (linkTakeOk_withAgenda s rest))

theorem run_respOk (n : Nat) (s : State) (rest : List Turn) :
    Host.Core.run core (n + 1) (s.withAgenda (.link .respOk :: rest)) =
      Host.Core.run core n ((linkRespOk s).withAgenda rest) :=
  run_succ core n _ _ (congrArg Host.Outcome.next (linkRespOk_withAgenda s rest))

/-- One frame's round: the Engine queues it, the link takes it and answers ok what it then owes. -/
def cooperativeRound (s : State) : State := linkRespOk (linkTakeOk (engineTurn s))

theorem run_round (n : Nat) (s : State) (rest : List Turn) (p : SessionProgram) (hphase : s.engine.phase = .xport)
    (hp : sessionProgramOf s.engine.cur = some p) :
    Host.Core.run core (n + 3) (s.withAgenda (.engine :: .link .takeOk :: .link .respOk :: rest)) =
      Host.Core.run core n ((cooperativeRound s).withAgenda rest) := by
  rw [run_engine _ _ _ p hphase hp, run_takeOk, run_respOk, cooperativeRound]

/-- A round whose frame is acknowledged ends the wait for it, as frame `c` of a BULK. -/
theorem cooperativeRound_acked {s u : State} {f : TxEntry} (hturn : engineTurn s = u) (fop : Byte) (c : Nat)
    (hphase : u.engine.phase = .xport) (hcur : u.engine.cur = .bulk fop) (hcursor : u.engine.chunkCursor = c)
    (hw : u.engine.sched = .wAck) (hpend : u.tx.ackPending = true) (hup : u.link.up = true)
    (howed : u.link.owed = false) (hq : u.tx.queue = [f]) (hack : f.ack = true) :
    cooperativeRound s = { u with
      tx := { queue := [], ackPending := false, waitCnt := 0 }
      link := { u.link with owed := false, stream := u.link.stream ++ [f.bytes] }
      retryCnt := 0
      engine := { u.engine with
        chunkCursor := c + 1
        sched := if c < (u.latched.bulkLen.toNat + 18) / 19 then .run else .wDrain }
      progress := if 1 ≤ c then { u.progress with bulkIdx := BitVec.ofNat 32 c } else u.progress
      status := if 1 ≤ c then { u.status with prog := true } else u.status } := by
  rw [cooperativeRound, hturn, linkTakeOk_of_head u f [] hup howed hq]
  exact linkRespOk_of_awaited_bulk _ fop c hphase hcur hcursor hw hpend hack

/-- After a round whose frame is unacknowledged nothing was owed, so nothing was answered (log entry 5). -/
theorem cooperativeRound_unacked {s u : State} {f : TxEntry} (hturn : engineTurn s = u) (hup : u.link.up = true)
    (howed : u.link.owed = false) (hq : u.tx.queue = [f]) (hack : f.ack = false) :
    cooperativeRound s = { u with
      tx := { u.tx with queue := [], waitCnt := 0 }
      link := { u.link with owed := false, stream := u.link.stream ++ [f.bytes] }
      retryCnt := 0 } := by
  rw [cooperativeRound, hturn, linkTakeOk_of_head u f [] hup howed hq, hack]
  exact (linkResponses_of_not_owed _ rfl).1

/-! ### What each round of a BULK leaves (R240, R241, R242) -/

/-- The frames of a BULK up to chunk `c`, as the link delivers them. -/
def bulkFrames (fop : Byte) (r : OperandRegs) (pack : Memory) (c : Nat) : List (List Byte) :=
  [0x03, fop] :: (List.range c).map fun k => (bulkChunk r pack (k + 1)).bytes

theorem bulkFrames_succ (fop : Byte) (r : OperandRegs) (pack : Memory) (c : Nat) :
    bulkFrames fop r pack (c + 1) = bulkFrames fop r pack c ++ [(bulkChunk r pack (c + 1)).bytes] := by
  rw [bulkFrames, bulkFrames, List.range_succ, List.map_append, List.cons_append, List.map_singleton]

/-- A BULK that has queued nothing yet, on a link that owes nothing, with TXQ empty. -/
structure State.BulkReady (t : State) (fop : Byte) : Prop where
  phase : t.engine.phase = .xport
  cur : t.engine.cur = .bulk fop
  sched : t.engine.sched = .run
  cursor : t.engine.chunkCursor = 0
  queue : t.tx.queue = []
  depth : 1 ≤ t.cfg.txqDepth
  index : t.progress.bulkIdx = 0
  up : t.link.up = true
  owed : t.link.owed = false

/-- `t`, such a BULK, after the rounds that deliver its frames up to chunk `c`. -/
def State.bulkDelivered (t : State) (fop : Byte) (c : Nat) : State := { t with
  engine := { t.engine with
    chunkCursor := c + 1
    sched := if c < (t.latched.bulkLen.toNat + 18) / 19 then .run else .wDrain }
  tx := { queue := [], ackPending := false, waitCnt := 0 }
  progress := { t.progress with bulkIdx := BitVec.ofNat 32 c }
  status := { t.status with prog := t.status.prog || decide (1 ≤ c) }
  retryCnt := 0
  link := { t.link with owed := false, stream := t.link.stream ++ bulkFrames fop t.latched t.bufs.pack c } }

namespace State.BulkReady

variable {t : State} {fop : Byte} (h : t.BulkReady fop) (c : Nat)

include h

/-- The first round delivers SEND_CMD. -/
theorem cooperativeRound_opening : cooperativeRound t = t.bulkDelivered fop 0 := by
  have hspace : t.tx.queue.length < t.cfg.txqDepth := by rw [h.queue]; exact h.depth
  have hindex : t.progress = { t.progress with bulkIdx := 0 } := by rw [← h.index]
  rw [cooperativeRound_acked (engineTurn_bulk_opening t fop h.phase h.cur (.inl h.sched) h.cursor hspace) fop 0
    h.phase h.cur h.cursor rfl rfl h.up h.owed (by rw [h.queue]; rfl) rfl]
  simpa [State.bulkDelivered, bulkFrames, sendCmdEntry] using hindex

/-- Each later round delivers the next chunk, acknowledged or not. -/
theorem cooperativeRound_chunk (hc : c < (t.latched.bulkLen.toNat + 18) / 19) :
    cooperativeRound (t.bulkDelivered fop c) = t.bulkDelivered fop (c + 1) := by
  have hw : (t.bulkDelivered fop c).engine.sched = .run := if_pos hc
  have hpos : 1 ≤ c + 1 := Nat.le_add_left 1 c
  by_cases hack : (c + 1) % (t.latched.interleave.toNat + 1) = 0
  · rw [cooperativeRound_acked (f := bulkChunk t.latched t.bufs.pack (c + 1))
      (engineTurn_bulk_acked (t.bulkDelivered fop c) fop (c + 1) h.phase h.cur (.inl hw) rfl hpos h.depth hack)
      fop (c + 1) h.phase h.cur rfl rfl rfl h.up rfl rfl (decide_eq_true hack)]
    simp [State.bulkDelivered, bulkFrames_succ, hc]
  · rw [cooperativeRound_unacked (f := bulkChunk t.latched t.bufs.pack (c + 1))
      (engineTurn_bulk_unacked (t.bulkDelivered fop c) fop (c + 1) h.phase h.cur (.inl hw) rfl hpos h.depth hack)
      h.up rfl rfl (decide_eq_false hack)]
    simp [State.bulkDelivered, bulkFrames_succ, hc]

theorem session : sessionProgramOf t.engine.cur = some (bulkProgram fop) := by rw [h.cur]; rfl

/-- After the last chunk the drain ends the command (R233). -/
theorem engineTurn_bulkDelivered_last (hlast : c = (t.latched.bulkLen.toNat + 18) / 19) :
    engineTurn (t.bulkDelivered fop c) = (t.bulkDelivered fop c).complete := by
  have hw : (t.bulkDelivered fop c).engine.sched = .wDrain := if_neg (by omega)
  rw [engineTurn_session (t.bulkDelivered fop c) (bulkProgram fop) h.phase h.session]
  exact SessionProgram.turn_of_drained _ _ hw rfl rfl

/-- From chunk `c` on, the rest of the schedule delivers the `n` chunks left and ends the command. -/
theorem run_from_delivered (n : Nat) (hleft : c + n = (t.latched.bulkLen.toNat + 18) / 19) :
    Host.Core.run core (3 * n + 1) ((t.bulkDelivered fop c).withAgenda (.engine :: cooperativeTurns n)) =
      .next ((t.bulkDelivered fop (c + n)).complete.withAgenda []) := by
  induction n generalizing c with
  | zero =>
    refine (run_engine 0 (t.bulkDelivered fop c) [] (bulkProgram fop) h.phase h.session).trans ?_
    rw [h.engineTurn_bulkDelivered_last c hleft]
    rfl
  | succ n ih =>
    rw [show 3 * (n + 1) + 1 = 3 * n + 1 + 3 by omega, cooperativeTurns,
      run_round _ (t.bulkDelivered fop c) _ (bulkProgram fop) h.phase h.session, h.cooperativeRound_chunk c (by omega),
      ih (c + 1) (by omega), Nat.add_assoc, Nat.add_comm 1 n]

/-- The whole schedule, from the first Engine step to DONE. -/
theorem run_cooperative (last : Nat) (hlast : last = (t.latched.bulkLen.toNat + 18) / 19) :
    Host.Core.run core (3 * (last + 1) + 1) (t.withAgenda (.engine :: cooperativeTurns (last + 1))) =
      .next ((t.bulkDelivered fop last).complete.withAgenda []) := by
  rw [show 3 * (last + 1) + 1 = 3 * last + 1 + 3 by omega, cooperativeTurns,
    run_round _ _ _ (bulkProgram fop) h.phase h.session, h.cooperativeRound_opening,
    h.run_from_delivered 0 last (by omega), Nat.zero_add]

end State.BulkReady

/-- An accepted BULK is ready when the link owes nothing and TXQ is empty. -/
theorem bulkReady_started (s : State) (fop : Byte) (hlink : s.linkUsable) (howed : s.link.owed = false)
    (hq : s.tx.queue = []) (hdepth : 1 ≤ s.cfg.txqDepth) : (s.started (.bulk fop)).BulkReady fop where
  phase := rfl
  cur := rfl
  sched := rfl
  cursor := rfl
  queue := hq
  depth := hdepth
  index := rfl
  up := hlink.1
  owed := howed

/-- Settles O45: the rounds deliver the frames one by one, and the drain ends the command. -/
theorem cooperativeBulkDeliversItsPayload : Obligations.CooperativeBulkDeliversItsPayload := by
  intro s t fop hidle hlink howed hq hdepth hrange hexec last
  have haccept := exec_of_passed_checks (.bulk fop) s hidle (bulk_passes s fop hlink hrange)
  obtain rfl : t = s.started (.bulk fop) := Host.Outcome.next.inj (hexec.symm.trans haccept)
  exact ⟨_, (bulkReady_started s fop hlink howed hq hdepth).run_cooperative last rfl,
    rfl, rfl, rfl, rfl, rfl, rfl, rfl⟩

end Sys2Proof.Machine
end

section
/-! PROOFS. Errors and their order (60_exceptions.md R272, R273, R277, R282, R285): command words that are rejected before
R112's checks, aborts of a session and their run up to the terminal state, and the events of one clock cycle. -/

namespace Sys2Proof.Machine

/-! ### Rejected command words (R272, R273) -/

/-- A write of CMD as the next turn delivers its word, legal or not (R28). -/
theorem step_delivers (s : State) (w : Word) (rest : List Turn) (ha : s.agenda = .host (.write .w32 0x014 w) :: rest) :
    step s = acceptWord w { s with agenda := rest } :=
  (step_write s rest .w32 0x014 w ha).trans (hostWrite_cmd w _)

/-- R100, R103: the command a word decodes to has the word's OP byte. -/
theorem opcode_of_decode (w : Word) (i : Instr) (h : decode w = .ok i) : i.opcode = (fieldsOf w).op := by
  obtain ⟨hword, -⟩ := encode_of_decode w i h
  have hop : (fieldsOfInstr i).op = i.opcode := by cases i <;> rfl
  rw [← hword]
  exact (Laws.EncodedOpcode.of_fields i hop).symm

theorem exec_of_busy (i : Instr) (s : State) (hbusy : s.busy = true) : exec i s = .next (s.recorded .busy i.opcode) := by
  rw [exec_eq]
  exact if_pos hbusy

/-- The BUSY check of a legal word and that of an illegal one leave the same record (R110, R272, R273). -/
theorem acceptWord_of_busy (w : Word) (s : State) (hbusy : s.busy = true) :
    acceptWord w s = .next (s.recorded .busy (fieldsOf w).op) := by
  cases hd : decode w with
  | ok i => rw [acceptWord_ok w i s hd, exec_of_busy i s hbusy, opcode_of_decode w i hd]
  | error e => rw [acceptWord_error w e s hd, if_pos hbusy]; rfl

/-- A word that matches no row is illegal in one of R104's two ways. -/
theorem decode_error_of_no_row (w : Word) (h : ∀ row ∈ opcodeTable, row.accepts w = false) :
    ∃ e, decode w = .error e := by
  cases hd : decode w with
  | error e => exact ⟨e, rfl⟩
  | ok i =>
    obtain ⟨row, hrow, haccepts⟩ := (decodes_iff_row w).1 ⟨i, hd⟩
    exact absurd haccepts (ne_true_of_eq_false (h row hrow))

/-- Settles O6: a word of no row does not decode, and its delivery is the record of an error. -/
theorem illegalWordRecordsIllegalCmd : Obligations.IllegalWordRecordsIllegalCmd := by
  intro s w rest ha hillegal
  obtain ⟨e, hd⟩ := decode_error_of_no_row w hillegal
  rw [step_delivers s w rest ha]
  exact acceptWord_error w e _ hd

/-- Settles O7: whether or not the word decodes, the BUSY check comes first. -/
theorem commandWhileBusyIsRejected : Obligations.CommandWhileBusyIsRejected := by
  intro s w rest ha hbusy
  rw [step_delivers s w rest ha]
  exact acceptWord_of_busy w _ hbusy

/-! ### Write failures (R237, R245, R277) -/

theorem linkTakeFail_of_session (s : State) (f : TxEntry) (rest : List TxEntry) (h : s.takeable = some (f, rest))
    (hack : f.ack = false) (hrun : s.sessionRunning = true) :
    linkTakeFail s = State.abortTransport .writeFailed { s with tx := { s.tx with queue := rest, waitCnt := 0 } } := by
  rw [linkTakeFail, h]
  exact (if_neg (ne_true_of_eq_false hack)).trans (if_pos hrun)

theorem linkRespFail_of_awaited (s : State) (howed : s.link.owed = true) (hpend : s.tx.ackPending = true)
    (hrun : s.sessionRunning = true) : linkRespFail s = s.answered.abortTransport .writeFailed :=
  (if_pos howed).trans (if_pos (by rw [Bool.and_eq_true]; exact ⟨hpend, hrun⟩))

/-- Settles O40: either failure is R237's abort, after the take or after the response. -/
theorem writeFailureAbortsTheSession : Obligations.WriteFailureAbortsTheSession := by
  rintro s e hrun (⟨rfl, hup, howed, f, rest, hq, hack⟩ | ⟨rfl, howed, hpend⟩)
  case inl =>
    have hlink : s.link = { s.link with owed := false } := by rw [← howed]
    refine (linkTakeFail_of_session s f rest (takeable_of_ready s f rest hup howed hq) hack hrun).trans ?_
    rw [State.abortTransport_record, ← hlink]
  case inr =>
    refine (linkRespFail_of_awaited s howed hpend hrun).trans ?_
    rw [State.abortTransport_record]
    rfl

/-! ### Consecutive failures (R285) -/

/-- An abort after the pulse of the one before has ended. -/
def State.failsAgain (code : ErrCode) (s : State) : State := State.abortTransport code { s with connectReq := false }

theorem State.failsAgain_retry (code : ErrCode) (s : State) (hleft : s.retryCnt.toNat < 5) :
    (s.failsAgain code).retryCnt.toNat = s.retryCnt.toNat + 1 ∧ (s.failsAgain code).connectReq = true ∧
    (s.failsAgain code).status.permFail = s.status.permFail := by
  rw [State.failsAgain, State.abortTransport_retry code { s with connectReq := false } hleft]
  refine ⟨?_, rfl, rfl⟩
  show (s.retryCnt + 1).toNat = s.retryCnt.toNat + 1
  rw [BitVec.toNat_add_of_lt (show s.retryCnt.toNat + 1 < 2 ^ 3 by omega)]
  rfl

theorem State.failsAgain_terminal (code : ErrCode) (s : State) (hspent : 5 ≤ s.retryCnt.toNat) :
    (s.failsAgain code).retryCnt = s.retryCnt ∧ (s.failsAgain code).connectReq = false ∧
    (s.failsAgain code).status.permFail = true := by
  rw [State.failsAgain, State.abortTransport_terminal code { s with connectReq := false } hspent]
  exact ⟨rfl, rfl, rfl⟩

/-- Within the budget each failure is counted, and none is terminal. -/
theorem State.failsAgain_iterate (code : ErrCode) (s : State) (hzero : s.retryCnt = 0) (hperm : s.status.permFail = false)
    (n : Nat) (hn : n ≤ 5) :
    ((State.failsAgain code)^[n] s).retryCnt.toNat = n ∧ ((State.failsAgain code)^[n] s).status.permFail = false := by
  induction n with
  | zero => exact ⟨congrArg BitVec.toNat hzero, hperm⟩
  | succ n ih =>
    obtain ⟨hcount, hnone⟩ := ih (by omega)
    obtain ⟨hcount', -, hperm'⟩ := State.failsAgain_retry code ((State.failsAgain code)^[n] s) (by omega)
    rw [Function.iterate_succ_apply', hcount', hcount, hperm', hnone]
    exact ⟨rfl, rfl⟩

/-- Each of the first five failures makes one attempt. -/
theorem State.failsAgain_attempt (code : ErrCode) (s : State) (hzero : s.retryCnt = 0) (hperm : s.status.permFail = false)
    (n : Nat) (hpos : 1 ≤ n) (hn : n ≤ 5) :
    ((State.failsAgain code)^[n] s).retryCnt.toNat = n ∧ ((State.failsAgain code)^[n] s).connectReq = true ∧
    ((State.failsAgain code)^[n] s).status.permFail = false := by
  obtain ⟨hcount, hnone⟩ := State.failsAgain_iterate code s hzero hperm n hn
  refine ⟨hcount, ?_, hnone⟩
  obtain ⟨m, rfl⟩ := Nat.exists_eq_add_of_le' hpos
  obtain ⟨hbefore, -⟩ := State.failsAgain_iterate code s hzero hperm m (by omega)
  obtain ⟨-, hpulse, -⟩ := State.failsAgain_retry code ((State.failsAgain code)^[m] s) (by omega)
  rw [Function.iterate_succ_apply']
  exact hpulse

/-- The sixth failure finds the budget spent. -/
theorem State.failsAgain_sixth (code : ErrCode) (s : State) (hzero : s.retryCnt = 0) (hperm : s.status.permFail = false) :
    ((State.failsAgain code)^[6] s).retryCnt.toNat = 5 ∧ ((State.failsAgain code)^[6] s).connectReq = false ∧
    ((State.failsAgain code)^[6] s).status.permFail = true := by
  obtain ⟨hspent, -⟩ := State.failsAgain_iterate code s hzero hperm 5 (le_refl 5)
  obtain ⟨hcount, hrest⟩ := State.failsAgain_terminal code ((State.failsAgain code)^[5] s) hspent.ge
  rw [Function.iterate_succ_apply', hcount]
  exact ⟨hspent, hrest⟩

/-- Settles O41: each of the first five failures finds budget left, the sixth finds none. -/
theorem sixthFailureIsTerminal : Obligations.SixthFailureIsTerminal := by
  intro s code hzero hperm fail
  have hfail : fail = State.failsAgain code := rfl
  rw [hfail]
  exact ⟨State.failsAgain_attempt code s hzero hperm, State.failsAgain_sixth code s hzero hperm⟩

/-! ### The events of one cycle (R282) -/

theorem withCycle_eq (s : State) (events : List Turn) (ha : s.agenda = []) :
    s.withCycle events = s.withAgenda (cycleOrder events) := by
  rw [State.withCycle, ha, List.append_nil]
  rfl

theorem cycleOrder_response_tick (events : List Turn)
    (h : events = [.tick, .link .respOk] ∨ events = [.link .respOk, .tick]) :
    cycleOrder events = [.link .respOk, .tick] := by
  rcases h with rfl | rfl <;> rfl

theorem cycleOrder_down_response (events : List Turn)
    (h : events = [.link .down, .link .respOk] ∨ events = [.link .respOk, .link .down]) :
    cycleOrder events = [.link .down, .link .respOk] := by
  rcases h with rfl | rfl <;> rfl

theorem run_tick (n : Nat) (s : State) (rest : List Turn) :
    Host.Core.run core (n + 1) (s.withAgenda (.tick :: rest)) = Host.Core.run core n (clockTick (s.withAgenda rest)) :=
  run_succ core n _ _ rfl

theorem linkDown_withAgenda (s : State) (a : List Turn) : linkDown (s.withAgenda a) = (linkDown s).withAgenda a := by
  cases hup : s.link.up with
  | true =>
    rw [linkDown_of_up s hup, linkDown_of_up (s.withAgenda a) hup,
      show (s.withAgenda a).sessionRunning = s.sessionRunning from rfl]
    split
    · rfl
    · rfl
  | false => rw [linkDown_of_down s hup, linkDown_of_down (s.withAgenda a) hup]

theorem run_down (n : Nat) (s : State) (rest : List Turn) :
    Host.Core.run core (n + 1) (s.withAgenda (.link .down :: rest)) = Host.Core.run core n ((linkDown s).withAgenda rest) :=
  run_succ core n _ _ (congrArg Host.Outcome.next (linkDown_withAgenda s rest))

/-- Once emit has returned with nothing left in TXQ, no timer runs: the next frame's turn or a drain that is over is due. -/
theorem SessionProgram.emitReturn_not_waiting (p : SessionProgram) (s : State) (hq : s.tx.queue = [])
    (hpend : s.tx.ackPending = false) : (p.emitReturn s).waiting = false := by
  rw [p.emitReturn_eq]
  unfold State.waiting
  by_cases hmore : s.engine.chunkCursor + 1 ≤ p.lastFrame s.latched
  · simp [hmore]
  · simp [hmore, State.drained, hq, hpend]

/-- R282: the response comes before the tick, which then finds no wait to time out (R234; log entry 11). -/
theorem run_response_tick (s : State) (hrun : s.sessionRunning = true) (hw : s.engine.sched = .wAck)
    (hq : s.tx.queue = []) (hpend : s.tx.ackPending = true) (howed : s.link.owed = true) :
    ∃ u, Host.Core.run core 2 (s.withAgenda [.link .respOk, .tick]) = .next u ∧ u.error = s.error ∧
      u.tx.ackPending = false ∧ u.retryCnt = 0 ∧ u.busy = true := by
  obtain ⟨hphase, hsome⟩ := (sessionRunning_iff s).1 hrun
  obtain ⟨p, hp⟩ := Option.isSome_iff_exists.1 hsome
  have hresp := linkRespOk_of_awaited s p hphase hp hw hpend howed
  have hno : (linkRespOk s).waiting = false := by
    rw [hresp]
    exact p.emitReturn_not_waiting s.answered.writeSucceeded.unpended hq rfl
  have hafter : (linkRespOk s).error = s.error ∧ (linkRespOk s).tx.ackPending = false ∧ (linkRespOk s).retryCnt = 0 ∧
      (linkRespOk s).engine.phase = .xport ∧ (linkRespOk s).engine.cur = s.engine.cur := by
    rw [hresp, p.emitReturn_eq]
    exact ⟨rfl, rfl, rfl, hphase, rfl⟩
  obtain ⟨herror, hack, hretry, hphase', hcur⟩ := hafter
  have hrun' : (linkRespOk s).sessionRunning = true := (sessionRunning_iff _).2 ⟨hphase', by rw [hcur]; exact hsome⟩
  have htick : clockTick ((linkRespOk s).withAgenda []) = ((linkRespOk s).withAgenda []).ticked :=
    clockTick_of_not_waiting _ hrun' hno
  refine ⟨_, (run_respOk 1 s [.tick]).trans ((run_tick 0 _ []).trans (congrArg Host.Outcome.next htick)),
    herror, hack, hretry, ?_⟩
  have hbusy : (linkRespOk s).busy = true := by rw [State.busy, hphase']; rfl
  exact hbusy

/-- R282: the link goes down first, and then owes no response (R252, R245). -/
theorem run_down_response (s : State) (hrun : s.sessionRunning = true) (hup : s.link.up = true) :
    ∃ u, Host.Core.run core 2 (s.withAgenda [.link .down, .link .respOk]) = .next u ∧ u.error.code = .disconnected ∧
      u.busy = false := by
  have hdown : linkDown s =
      State.abortDisconnected { s with link := { s.link with up := false, owed := false } } :=
    (linkDown_of_up s hup).trans (if_pos hrun)
  have hresp : linkRespOk (linkDown s) = linkDown s :=
    (linkResponses_of_not_owed _ (by rw [hdown]; rfl)).1
  refine ⟨_, (run_down 1 s _).trans (run_respOk 0 _ []), ?_, ?_⟩
  all_goals rw [hresp, hdown]; rfl

/-- Settles O46: R282 puts either listing in one order, in which the first event decides. -/
theorem oneCycleHasOneOutcome : Obligations.OneCycleHasOneOutcome := by
  intro s hrun hw hq hpend howed hup ha _ _
  refine ⟨fun events hevents => ?_, fun events hevents => ?_⟩
  · rw [withCycle_eq s events ha, cycleOrder_response_tick events hevents]
    exact run_response_tick s hrun hw hq hpend howed
  · rw [withCycle_eq s events ha, cycleOrder_down_response events hevents]
    exact run_down_response s hrun hup

end Sys2Proof.Machine
end

section
/-! PROOFS. Reset (70_reset_and_hazards.md R300, R301) and the memories under a running session (R310, R311): what every CSR
reads after power-on, that a soft reset shows the host the same registers, that the reset state keeps the promises of
Safety.lean, and that no agent stores a byte while a session runs. -/

namespace Sys2Proof.Machine

/-! ### Power-on (R300) -/

/-- With nothing running and nothing in TXQ, STATUS shows the link's level and TXQ_EMPTY alone (R23). -/
theorem statusWord_powerOn (cfg : Config) (level : Bool) :
    (State.powerOn cfg level).statusWord = csrResetValue 0x008 level := by
  cases level <;> rfl

/-- With no error recorded, ERR is 0 (R26). -/
theorem errWord_powerOn (cfg : Config) (level : Bool) : (State.powerOn cfg level).errWord = 0 :=
  BitVec.eq_of_toNat_eq (errWord_toNat _)

/-- R20's reset column, CSR by CSR: the words of STATUS and ERR, 0 at an offset that holds no CSR, and the rest by computing
from the fields' values. -/
theorem csrRead_powerOn (cfg : Config) (level : Bool) (off : Nat) :
    csrRead off (State.powerOn cfg level) = csrResetValue off level := by
  unfold csrRead
  split
  case h_3 => exact statusWord_powerOn cfg level
  case h_4 => exact errWord_powerOn cfg level
  case h_38 => simp_all [csrResetValue]
  all_goals rfl

/-- Settles O55: every CSR by the reset column, the rest as the state after power-on is written. -/
theorem powerOnValues : Obligations.PowerOnValues := fun cfg level =>
  ⟨csrRead_powerOn cfg level, rfl, rfl, rfl, rfl, rfl, rfl, rfl, fun a => ⟨memByte_nil .pixmem a, memByte_nil .packmem a⟩⟩

/-! ### The promises at reset (R300, R5) -/

/-- Whatever matrix an implementation was built with, the one it has is legal (R150). -/
theorem chip_bayerLegal : Config.bayerLegal Config.chip.bayer := by
  unfold Config.chip
  dsimp only
  split
  next hbuilt => exact hbuilt
  next => decide

theorem chip_legal : Config.chip.legal := by
  have hpix : Config.chip.pixMax = Config.pixMaxAboveLeast.val + 8 := rfl
  have hpack : Config.chip.packBytes = Config.packBytesAboveLeast.val + 1 := rfl
  have hdepth : Config.chip.txqDepth = Config.txqDepthAboveLeast.val + 1 := rfl
  exact ⟨by omega, by omega, by omega, chip_bayerLegal⟩

/-- Power-on of any legal configuration, at either level of the link. -/
theorem powerOn_good (cfg : Config) (level : Bool) (hlegal : cfg.legal) : (State.powerOn cfg level).Good where
  configLegal := hlegal
  canonical := ⟨.nil, .nil⟩
  inRange := ⟨fun _ h => absurd h List.not_mem_nil, fun _ h => absurd h List.not_mem_nil⟩
  running := rfl
  bounded := ⟨Nat.zero_le _, fun _ h => absurd h List.not_mem_nil⟩
  quiet := fun _ => ⟨rfl, rfl⟩
  ackWait := fun h => by cases h
  retry := ⟨Nat.zero_le _, fun h => by cases h⟩
  recorded := errorRecorded_of_clear _ rfl rfl

/-- Settles O56: the chip's configuration is a legal one. -/
theorem resetIsGood : Obligations.ResetIsGood := powerOn_good Config.chip false chip_legal

/-! ### Soft reset (R301) -/

theorem csrWrite_srst (v : Word) (s : State) (h : v.getLsbD 0 = true) : csrWrite 0x004 v s = s.softReset := if_pos h

/-- The host sees the same registers after a soft reset as after power-on with the link at its present level. -/
theorem csrRead_softReset (off : Nat) (s : State) :
    csrRead off s.softReset = csrRead off (State.powerOn s.cfg s.link.up) := rfl

/-- Settles O54: a write with SRST is a soft reset, and its registers are those of power-on. -/
theorem softResetRestoresTheCsrs : Obligations.SoftResetRestoresTheCsrs := by
  intro s v hsrst
  rw [csrWrite_srst v s hsrst]
  exact ⟨fun off => (csrRead_softReset off s).trans (csrRead_powerOn s.cfg s.link.up off),
    rfl, softReset_bufs s, softReset_link s, rfl, rfl, rfl, rfl, softReset_connectReq s⟩

/-! ### The memories while a session runs (R310, R311) -/

theorem busy_of_sessionRunning (s : State) (h : s.sessionRunning = true) : s.busy = true :=
  eq_true_of_ne_false fun hidle => by rw [sessionRunning_of_idle s hidle] at h; cases h

/-- A busy block refuses the host's stores (R79), and nothing else that the host does reaches a memory. -/
theorem HostEffect.bufs_of_busy {s t : State} (h : HostEffect s t) (hbusy : s.busy = true) : t.bufs = s.bufs := by
  cases h with
  | registers | reset | error => rfl
  | statusWrite v => rw [writeStatus_eq]
  | accepted _ hidle | stored _ _ _ _ hidle => rw [hbusy] at hidle; cases hidle

/-- A session reads PACKMEM and stores nowhere (R240). -/
theorem engineTurn_bufs_of_session (s : State) (h : s.sessionRunning = true) : (engineTurn s).bufs = s.bufs := by
  obtain ⟨p, -, hturn⟩ := exists_session_program s h
  obtain ⟨_, hbufs, _⟩ := p.turn_frame s
  rw [hturn, hbufs]

/-- Settles O60: of the four agents only the host and the Engine ever store, the host not while the block is busy and the
Engine not in a session. -/
theorem sessionLeavesTheMemories : Obligations.SessionLeavesTheMemories := by
  intro s t hrun hstep
  obtain ⟨turn, rest, h⟩ := step_cases s t hstep
  cases turn with
  | host a => exact (hostAccess_effect a _ t h).bufs_of_busy (busy_of_sessionRunning s hrun)
  | engine => injection h with h; subst h; exact engineTurn_bufs_of_session { s with agenda := rest } hrun
  | link e =>
    injection h with h; subst h
    obtain ⟨_, _, hbufs, _⟩ := linkStep_frame e { s with agenda := rest }
    exact hbufs
  | tick =>
    injection h with h; subst h
    obtain ⟨_, _, hbufs, _⟩ := clockTick_frame { s with agenda := rest }
    exact hbufs

end Sys2Proof.Machine
end
